-- ==== Sys2Proof/Word.lean ====
section
/-! DEFINITION. The widths of the bank (spec/00_scope.md R4): a byte lane is 8 bits, a register is 16 bits.
A bus address and a value operand are unsigned numbers of any width (R53, R74, R76), so they are plain `Nat`. -/

namespace Sys2Proof

/-- One byte lane, `LANE_WIDTH` = 8 bits (R4). -/
abbrev Byte := BitVec 8

/-- One register value, `REG_WIDTH` = 16 bits (R4, R12). -/
abbrev Half := BitVec 16

end Sys2Proof
end

