-- ==== Sys2Proof/Config.lean ====
section
/-! DEFINITION. What the implementation fixes: the names of the 25 registers and their two lanes, a record with one
entry per register, the fixed constants of spec/00_scope.md R4, and the record of its four configurable parameters.
The default configuration stands in Sys2Proof/Machine/AddressMap.lean. -/

namespace Sys2Proof

/-- The 25 registers, in the order of spec/10_state.md R11. -/
inductive Reg where
  | dispcnt | dispstat | vcount | bg0cnt | bg1cnt | bg2cnt | bg3cnt | bg0hofs | bg0vofs | bg1hofs
  | bg1vofs | bg2hofs | bg2vofs | bg3hofs | bg3vofs | win0h | win1h | win0v | win1v | winin
  | winout | mosaic | bldcnt | bldalpha | bldy
  deriving DecidableEq, Repr

/-- Every register once, in `regid` order (R11: `DISPCNT` is 0, `BLDY` is 24). -/
def Reg.all : List Reg :=
  [.dispcnt, .dispstat, .vcount, .bg0cnt, .bg1cnt, .bg2cnt, .bg3cnt, .bg0hofs, .bg0vofs, .bg1hofs,
  .bg1vofs, .bg2hofs, .bg2vofs, .bg3hofs, .bg3vofs, .win0h, .win1h, .win0v, .win1v, .winin,
  .winout, .mosaic, .bldcnt, .bldalpha, .bldy]

/-- The two byte lanes of a register (R9): `lo` is bits 7:0, `hi` is bits 15:8. -/
inductive Lane where
  | lo | hi
  deriving DecidableEq, Repr

/-- Where a lane sits from its register's base: the low byte is at the even address, the high byte at the next (R54). -/
def Lane.offset : Lane → Nat
  | .lo => 0
  | .hi => 1

/-- One value for each of the 25 registers. The bank is this record over 16-bit values (R10); the offset table is this
record over offsets (R4). -/
structure PerReg (α : Type) where
  dispcnt : α
  dispstat : α
  vcount : α
  bg0cnt : α
  bg1cnt : α
  bg2cnt : α
  bg3cnt : α
  bg0hofs : α
  bg0vofs : α
  bg1hofs : α
  bg1vofs : α
  bg2hofs : α
  bg2vofs : α
  bg3hofs : α
  bg3vofs : α
  win0h : α
  win1h : α
  win0v : α
  win1v : α
  winin : α
  winout : α
  mosaic : α
  bldcnt : α
  bldalpha : α
  bldy : α
  deriving DecidableEq, Repr

/-- The stored values of the 25 registers: the complete architectural state of the block (R10). -/
abbrev Bank := PerReg Half

/-- `OFFSET_TABLE`: each register's base offset from `ioBase` (R4, R15). -/
abbrev OffsetTable := PerReg Nat

/-- The configuration record (R4): the parameters the rule marks *config*. -/
structure Config where
  /-- `ADDR_WIDTH`: bits of a bus address (R4, R50). -/
  addrWidth : Nat
  /-- `DATA_IN_WIDTH`: bits of the value operand of a byte write before masking (R4, R74). -/
  dataInWidth : Nat
  /-- `OFFSET_TABLE` (R4, R15). -/
  offsets : OffsetTable
  /-- `DIAG_ENABLE`: whether an unmapped access emits a notice (R4, R144). -/
  diagEnable : Bool
  deriving DecidableEq, Repr

/-- `IO_BASE` (R4). -/
abbrev ioBase : Nat := 0x04000000

/-- `REGION_LAST`, as an address: the last address of the region (R4, R51). -/
abbrev regionEnd : Nat := 0x04000055

/-- `UNMAPPED_READ_VALUE` (R4, R141). -/
def unmappedReadValue : Byte := 0x00

end Sys2Proof
end

