-- ==== Sys2Proof/Syntax.lean ====
section
/-! DEFINITION. The operations of the block, one constructor per row of spec/opcode_table.json: the 29 `OP` rows of
spec/30_encoding.md R70 and the 50 `LANE` rows of R73. A `LANE` row names one mapped bus address; its constructor is a
byte access (a read, or a write of a value) presented at that address. -/

namespace Sys2Proof

/-- What the bus dispatcher does at an address: `RDB` or `WRB` with its value operand (R70). -/
inductive BusAccess where
  | read
  | write (v : Nat)
  deriving DecidableEq, Repr

/-- The operations, one constructor per row of spec/opcode_table.json. -/
inductive Instr where
  /-- `RESET` (R130). -/
  | reset
  /-- `RDB a`: read the byte at bus address `a` (R90). -/
  | rdb (a : Nat)
  /-- `WRB a, v`: write the low 8 bits of `v` at bus address `a` (R91). -/
  | wrb (a v : Nat)
  /-- `SETVCOUNT v`: write the whole of `VCOUNT` (R131). -/
  | setvcount (v : Nat)
  /-- `GET.DISPCNT`: the whole-register read port of `DISPCNT` (R101). -/
  | getDispcnt
  /-- `GET.DISPSTAT`: the whole-register read port of `DISPSTAT` (R102). -/
  | getDispstat
  /-- `GET.VCOUNT`: the whole-register read port of `VCOUNT` (R103). -/
  | getVcount
  /-- `GET.BG0CNT`: the whole-register read port of `BG0CNT` (R104). -/
  | getBg0cnt
  /-- `GET.BG1CNT`: the whole-register read port of `BG1CNT` (R105). -/
  | getBg1cnt
  /-- `GET.BG2CNT`: the whole-register read port of `BG2CNT` (R106). -/
  | getBg2cnt
  /-- `GET.BG3CNT`: the whole-register read port of `BG3CNT` (R107). -/
  | getBg3cnt
  /-- `GET.BG0HOFS`: the whole-register read port of `BG0HOFS` (R108). -/
  | getBg0hofs
  /-- `GET.BG0VOFS`: the whole-register read port of `BG0VOFS` (R109). -/
  | getBg0vofs
  /-- `GET.BG1HOFS`: the whole-register read port of `BG1HOFS` (R110). -/
  | getBg1hofs
  /-- `GET.BG1VOFS`: the whole-register read port of `BG1VOFS` (R111). -/
  | getBg1vofs
  /-- `GET.BG2HOFS`: the whole-register read port of `BG2HOFS` (R112). -/
  | getBg2hofs
  /-- `GET.BG2VOFS`: the whole-register read port of `BG2VOFS` (R113). -/
  | getBg2vofs
  /-- `GET.BG3HOFS`: the whole-register read port of `BG3HOFS` (R114). -/
  | getBg3hofs
  /-- `GET.BG3VOFS`: the whole-register read port of `BG3VOFS` (R115). -/
  | getBg3vofs
  /-- `GET.WIN0H`: the whole-register read port of `WIN0H` (R116). -/
  | getWin0h
  /-- `GET.WIN1H`: the whole-register read port of `WIN1H` (R117). -/
  | getWin1h
  /-- `GET.WIN0V`: the whole-register read port of `WIN0V` (R118). -/
  | getWin0v
  /-- `GET.WIN1V`: the whole-register read port of `WIN1V` (R119). -/
  | getWin1v
  /-- `GET.WININ`: the whole-register read port of `WININ` (R120). -/
  | getWinin
  /-- `GET.WINOUT`: the whole-register read port of `WINOUT` (R121). -/
  | getWinout
  /-- `GET.MOSAIC`: the whole-register read port of `MOSAIC` (R122). -/
  | getMosaic
  /-- `GET.BLDCNT`: the whole-register read port of `BLDCNT` (R123). -/
  | getBldcnt
  /-- `GET.BLDALPHA`: the whole-register read port of `BLDALPHA` (R124). -/
  | getBldalpha
  /-- `GET.BLDY`: the whole-register read port of `BLDY` (R125). -/
  | getBldy
  /-- Row `DISPCNT.lo` (R17): a byte access at bus address 0x04000000. -/
  | dispcntLo (acc : BusAccess)
  /-- Row `DISPCNT.hi` (R17): a byte access at bus address 0x04000001. -/
  | dispcntHi (acc : BusAccess)
  /-- Row `DISPSTAT.lo` (R18): a byte access at bus address 0x04000004. -/
  | dispstatLo (acc : BusAccess)
  /-- Row `DISPSTAT.hi` (R18): a byte access at bus address 0x04000005. -/
  | dispstatHi (acc : BusAccess)
  /-- Row `VCOUNT.lo` (R19): a byte access at bus address 0x04000006. -/
  | vcountLo (acc : BusAccess)
  /-- Row `VCOUNT.hi` (R19): a byte access at bus address 0x04000007. -/
  | vcountHi (acc : BusAccess)
  /-- Row `BG0CNT.lo` (R20): a byte access at bus address 0x04000008. -/
  | bg0cntLo (acc : BusAccess)
  /-- Row `BG0CNT.hi` (R20): a byte access at bus address 0x04000009. -/
  | bg0cntHi (acc : BusAccess)
  /-- Row `BG1CNT.lo` (R21): a byte access at bus address 0x0400000a. -/
  | bg1cntLo (acc : BusAccess)
  /-- Row `BG1CNT.hi` (R21): a byte access at bus address 0x0400000b. -/
  | bg1cntHi (acc : BusAccess)
  /-- Row `BG2CNT.lo` (R22): a byte access at bus address 0x0400000c. -/
  | bg2cntLo (acc : BusAccess)
  /-- Row `BG2CNT.hi` (R22): a byte access at bus address 0x0400000d. -/
  | bg2cntHi (acc : BusAccess)
  /-- Row `BG3CNT.lo` (R23): a byte access at bus address 0x0400000e. -/
  | bg3cntLo (acc : BusAccess)
  /-- Row `BG3CNT.hi` (R23): a byte access at bus address 0x0400000f. -/
  | bg3cntHi (acc : BusAccess)
  /-- Row `BG0HOFS.lo` (R24): a byte access at bus address 0x04000010. -/
  | bg0hofsLo (acc : BusAccess)
  /-- Row `BG0HOFS.hi` (R24): a byte access at bus address 0x04000011. -/
  | bg0hofsHi (acc : BusAccess)
  /-- Row `BG0VOFS.lo` (R25): a byte access at bus address 0x04000012. -/
  | bg0vofsLo (acc : BusAccess)
  /-- Row `BG0VOFS.hi` (R25): a byte access at bus address 0x04000013. -/
  | bg0vofsHi (acc : BusAccess)
  /-- Row `BG1HOFS.lo` (R26): a byte access at bus address 0x04000014. -/
  | bg1hofsLo (acc : BusAccess)
  /-- Row `BG1HOFS.hi` (R26): a byte access at bus address 0x04000015. -/
  | bg1hofsHi (acc : BusAccess)
  /-- Row `BG1VOFS.lo` (R27): a byte access at bus address 0x04000016. -/
  | bg1vofsLo (acc : BusAccess)
  /-- Row `BG1VOFS.hi` (R27): a byte access at bus address 0x04000017. -/
  | bg1vofsHi (acc : BusAccess)
  /-- Row `BG2HOFS.lo` (R28): a byte access at bus address 0x04000018. -/
  | bg2hofsLo (acc : BusAccess)
  /-- Row `BG2HOFS.hi` (R28): a byte access at bus address 0x04000019. -/
  | bg2hofsHi (acc : BusAccess)
  /-- Row `BG2VOFS.lo` (R29): a byte access at bus address 0x0400001a. -/
  | bg2vofsLo (acc : BusAccess)
  /-- Row `BG2VOFS.hi` (R29): a byte access at bus address 0x0400001b. -/
  | bg2vofsHi (acc : BusAccess)
  /-- Row `BG3HOFS.lo` (R30): a byte access at bus address 0x0400001c. -/
  | bg3hofsLo (acc : BusAccess)
  /-- Row `BG3HOFS.hi` (R30): a byte access at bus address 0x0400001d. -/
  | bg3hofsHi (acc : BusAccess)
  /-- Row `BG3VOFS.lo` (R31): a byte access at bus address 0x0400001e. -/
  | bg3vofsLo (acc : BusAccess)
  /-- Row `BG3VOFS.hi` (R31): a byte access at bus address 0x0400001f. -/
  | bg3vofsHi (acc : BusAccess)
  /-- Row `WIN0H.lo` (R32): a byte access at bus address 0x04000040. -/
  | win0hLo (acc : BusAccess)
  /-- Row `WIN0H.hi` (R32): a byte access at bus address 0x04000041. -/
  | win0hHi (acc : BusAccess)
  /-- Row `WIN1H.lo` (R33): a byte access at bus address 0x04000042. -/
  | win1hLo (acc : BusAccess)
  /-- Row `WIN1H.hi` (R33): a byte access at bus address 0x04000043. -/
  | win1hHi (acc : BusAccess)
  /-- Row `WIN0V.lo` (R34): a byte access at bus address 0x04000044. -/
  | win0vLo (acc : BusAccess)
  /-- Row `WIN0V.hi` (R34): a byte access at bus address 0x04000045. -/
  | win0vHi (acc : BusAccess)
  /-- Row `WIN1V.lo` (R35): a byte access at bus address 0x04000046. -/
  | win1vLo (acc : BusAccess)
  /-- Row `WIN1V.hi` (R35): a byte access at bus address 0x04000047. -/
  | win1vHi (acc : BusAccess)
  /-- Row `WININ.lo` (R36): a byte access at bus address 0x04000048. -/
  | wininLo (acc : BusAccess)
  /-- Row `WININ.hi` (R36): a byte access at bus address 0x04000049. -/
  | wininHi (acc : BusAccess)
  /-- Row `WINOUT.lo` (R37): a byte access at bus address 0x0400004a. -/
  | winoutLo (acc : BusAccess)
  /-- Row `WINOUT.hi` (R37): a byte access at bus address 0x0400004b. -/
  | winoutHi (acc : BusAccess)
  /-- Row `MOSAIC.lo` (R38): a byte access at bus address 0x0400004c. -/
  | mosaicLo (acc : BusAccess)
  /-- Row `MOSAIC.hi` (R38): a byte access at bus address 0x0400004d. -/
  | mosaicHi (acc : BusAccess)
  /-- Row `BLDCNT.lo` (R39): a byte access at bus address 0x04000050. -/
  | bldcntLo (acc : BusAccess)
  /-- Row `BLDCNT.hi` (R39): a byte access at bus address 0x04000051. -/
  | bldcntHi (acc : BusAccess)
  /-- Row `BLDALPHA.lo` (R40): a byte access at bus address 0x04000052. -/
  | bldalphaLo (acc : BusAccess)
  /-- Row `BLDALPHA.hi` (R40): a byte access at bus address 0x04000053. -/
  | bldalphaHi (acc : BusAccess)
  /-- Row `BLDY.lo` (R41): a byte access at bus address 0x04000054. -/
  | bldyLo (acc : BusAccess)
  /-- Row `BLDY.hi` (R41): a byte access at bus address 0x04000055. -/
  | bldyHi (acc : BusAccess)
  deriving DecidableEq, Repr

/-- The kinds of operation (R70), with a `LANE` row kept apart from the `OP` row of the same access because the two are
written as different words. -/
inductive OpKind where
  | reset
  | rdb (a : Nat)
  | wrb (a v : Nat)
  | setvcount (v : Nat)
  | get (r : Reg)
  | lane (r : Reg) (l : Lane) (acc : BusAccess)
  deriving DecidableEq, Repr

/-- The kind of each row, with the register and lane the row names. -/
def Instr.kind : Instr → OpKind
  | .reset => .reset
  | .rdb a => .rdb a
  | .wrb a v => .wrb a v
  | .setvcount v => .setvcount v
  | .getDispcnt => .get .dispcnt
  | .getDispstat => .get .dispstat
  | .getVcount => .get .vcount
  | .getBg0cnt => .get .bg0cnt
  | .getBg1cnt => .get .bg1cnt
  | .getBg2cnt => .get .bg2cnt
  | .getBg3cnt => .get .bg3cnt
  | .getBg0hofs => .get .bg0hofs
  | .getBg0vofs => .get .bg0vofs
  | .getBg1hofs => .get .bg1hofs
  | .getBg1vofs => .get .bg1vofs
  | .getBg2hofs => .get .bg2hofs
  | .getBg2vofs => .get .bg2vofs
  | .getBg3hofs => .get .bg3hofs
  | .getBg3vofs => .get .bg3vofs
  | .getWin0h => .get .win0h
  | .getWin1h => .get .win1h
  | .getWin0v => .get .win0v
  | .getWin1v => .get .win1v
  | .getWinin => .get .winin
  | .getWinout => .get .winout
  | .getMosaic => .get .mosaic
  | .getBldcnt => .get .bldcnt
  | .getBldalpha => .get .bldalpha
  | .getBldy => .get .bldy
  | .dispcntLo acc => .lane .dispcnt .lo acc
  | .dispcntHi acc => .lane .dispcnt .hi acc
  | .dispstatLo acc => .lane .dispstat .lo acc
  | .dispstatHi acc => .lane .dispstat .hi acc
  | .vcountLo acc => .lane .vcount .lo acc
  | .vcountHi acc => .lane .vcount .hi acc
  | .bg0cntLo acc => .lane .bg0cnt .lo acc
  | .bg0cntHi acc => .lane .bg0cnt .hi acc
  | .bg1cntLo acc => .lane .bg1cnt .lo acc
  | .bg1cntHi acc => .lane .bg1cnt .hi acc
  | .bg2cntLo acc => .lane .bg2cnt .lo acc
  | .bg2cntHi acc => .lane .bg2cnt .hi acc
  | .bg3cntLo acc => .lane .bg3cnt .lo acc
  | .bg3cntHi acc => .lane .bg3cnt .hi acc
  | .bg0hofsLo acc => .lane .bg0hofs .lo acc
  | .bg0hofsHi acc => .lane .bg0hofs .hi acc
  | .bg0vofsLo acc => .lane .bg0vofs .lo acc
  | .bg0vofsHi acc => .lane .bg0vofs .hi acc
  | .bg1hofsLo acc => .lane .bg1hofs .lo acc
  | .bg1hofsHi acc => .lane .bg1hofs .hi acc
  | .bg1vofsLo acc => .lane .bg1vofs .lo acc
  | .bg1vofsHi acc => .lane .bg1vofs .hi acc
  | .bg2hofsLo acc => .lane .bg2hofs .lo acc
  | .bg2hofsHi acc => .lane .bg2hofs .hi acc
  | .bg2vofsLo acc => .lane .bg2vofs .lo acc
  | .bg2vofsHi acc => .lane .bg2vofs .hi acc
  | .bg3hofsLo acc => .lane .bg3hofs .lo acc
  | .bg3hofsHi acc => .lane .bg3hofs .hi acc
  | .bg3vofsLo acc => .lane .bg3vofs .lo acc
  | .bg3vofsHi acc => .lane .bg3vofs .hi acc
  | .win0hLo acc => .lane .win0h .lo acc
  | .win0hHi acc => .lane .win0h .hi acc
  | .win1hLo acc => .lane .win1h .lo acc
  | .win1hHi acc => .lane .win1h .hi acc
  | .win0vLo acc => .lane .win0v .lo acc
  | .win0vHi acc => .lane .win0v .hi acc
  | .win1vLo acc => .lane .win1v .lo acc
  | .win1vHi acc => .lane .win1v .hi acc
  | .wininLo acc => .lane .winin .lo acc
  | .wininHi acc => .lane .winin .hi acc
  | .winoutLo acc => .lane .winout .lo acc
  | .winoutHi acc => .lane .winout .hi acc
  | .mosaicLo acc => .lane .mosaic .lo acc
  | .mosaicHi acc => .lane .mosaic .hi acc
  | .bldcntLo acc => .lane .bldcnt .lo acc
  | .bldcntHi acc => .lane .bldcnt .hi acc
  | .bldalphaLo acc => .lane .bldalpha .lo acc
  | .bldalphaHi acc => .lane .bldalpha .hi acc
  | .bldyLo acc => .lane .bldy .lo acc
  | .bldyHi acc => .lane .bldy .hi acc

end Sys2Proof
end

