-- ==== Sys2Proof/WellFormed.lean ====
section
/-! DEFINITION. Which operations an agent can present under a configuration: an address fits `ADDR_WIDTH` bits (R50), the
value of a byte write fits `DATA_IN_WIDTH` bits (R74), the value of `SETVCOUNT` fits the 16 bits of its data field (R77).
An operation outside these bounds still has a meaning (R53, R74, R76). Under the default widths the operations inside them
are those with a word of their own; where `ADDR_WIDTH` is above 32 or `DATA_IN_WIDTH` above 16, some inside them have none
(DESIGN CHOICE, log entry 16). -/

namespace Sys2Proof

/-- The value operand of a write fits `DATA_IN_WIDTH` bits; a read has none. -/
def BusAccess.wellFormed (c : Config) : BusAccess → Bool
  | .read => true
  | .write v => decide (v < 2 ^ c.dataInWidth)

/-- The operands of `i` fit the widths of the configuration. -/
def Instr.wellFormed (c : Config) (i : Instr) : Bool :=
  match i.kind with
  | .reset => true
  | .rdb a => decide (a < 2 ^ c.addrWidth)
  | .wrb a v => decide (a < 2 ^ c.addrWidth) && decide (v < 2 ^ c.dataInWidth)
  | .setvcount v => decide (v < 2 ^ 16)
  | .get _ => true
  | .lane _ _ acc => acc.wellFormed c

end Sys2Proof
end

