-- ==== Sys2Proof/Decode.lean ====
section
/-! DEFINITION. The words an operation is written as, their decoder and their encoder (spec/30_encoding.md R73, R77, R78,
R82). An `OP` row is the 52-bit transaction word of R77. A `LANE` row is a bus cycle: the 32 bits of its address as the
table gives them, and above them this model's own operand bits (log entry 3). Both decoders are total; a word that spells
no operation is refused by name. -/

namespace Sys2Proof

/-- Why a transaction word spells no operation of the bank (R78 (c)). -/
inductive WordError where
  /-- `op` is 5 to 15. -/
  | reservedOp (op : Nat)
  /-- `op` is 3 and `addr`, taken as a `regid`, is above 24. -/
  | noSuchRegister (addr : Nat)
  deriving DecidableEq, Repr

/-- What a decoder answers. -/
inductive WordDecode where
  | operation (i : Instr)
  | invalid (e : WordError)
  deriving DecidableEq, Repr

/-- An operation as an agent presents it, still encoded. -/
inductive Presented where
  /-- A 52-bit transaction word (R77). -/
  | op (w : BitVec 52)
  /-- A bus cycle: address in bits 31:0, value in bits 47:32, write enable in bit 48 (log entry 3). -/
  | cycle (w : BitVec 49)
  deriving DecidableEq, Repr

/-- The getter of each register (R70, R100). -/
def Reg.getOp : Reg → Instr
  | .dispcnt => .getDispcnt
  | .dispstat => .getDispstat
  | .vcount => .getVcount
  | .bg0cnt => .getBg0cnt
  | .bg1cnt => .getBg1cnt
  | .bg2cnt => .getBg2cnt
  | .bg3cnt => .getBg3cnt
  | .bg0hofs => .getBg0hofs
  | .bg0vofs => .getBg0vofs
  | .bg1hofs => .getBg1hofs
  | .bg1vofs => .getBg1vofs
  | .bg2hofs => .getBg2hofs
  | .bg2vofs => .getBg2vofs
  | .bg3hofs => .getBg3hofs
  | .bg3vofs => .getBg3vofs
  | .win0h => .getWin0h
  | .win1h => .getWin1h
  | .win0v => .getWin0v
  | .win1v => .getWin1v
  | .winin => .getWinin
  | .winout => .getWinout
  | .mosaic => .getMosaic
  | .bldcnt => .getBldcnt
  | .bldalpha => .getBldalpha
  | .bldy => .getBldy

/-- The `LANE` row of each lane, with its access. -/
def laneOp (r : Reg) (l : Lane) (acc : BusAccess) : Instr :=
  match r, l with
  | .dispcnt, .lo => .dispcntLo acc
  | .dispcnt, .hi => .dispcntHi acc
  | .dispstat, .lo => .dispstatLo acc
  | .dispstat, .hi => .dispstatHi acc
  | .vcount, .lo => .vcountLo acc
  | .vcount, .hi => .vcountHi acc
  | .bg0cnt, .lo => .bg0cntLo acc
  | .bg0cnt, .hi => .bg0cntHi acc
  | .bg1cnt, .lo => .bg1cntLo acc
  | .bg1cnt, .hi => .bg1cntHi acc
  | .bg2cnt, .lo => .bg2cntLo acc
  | .bg2cnt, .hi => .bg2cntHi acc
  | .bg3cnt, .lo => .bg3cntLo acc
  | .bg3cnt, .hi => .bg3cntHi acc
  | .bg0hofs, .lo => .bg0hofsLo acc
  | .bg0hofs, .hi => .bg0hofsHi acc
  | .bg0vofs, .lo => .bg0vofsLo acc
  | .bg0vofs, .hi => .bg0vofsHi acc
  | .bg1hofs, .lo => .bg1hofsLo acc
  | .bg1hofs, .hi => .bg1hofsHi acc
  | .bg1vofs, .lo => .bg1vofsLo acc
  | .bg1vofs, .hi => .bg1vofsHi acc
  | .bg2hofs, .lo => .bg2hofsLo acc
  | .bg2hofs, .hi => .bg2hofsHi acc
  | .bg2vofs, .lo => .bg2vofsLo acc
  | .bg2vofs, .hi => .bg2vofsHi acc
  | .bg3hofs, .lo => .bg3hofsLo acc
  | .bg3hofs, .hi => .bg3hofsHi acc
  | .bg3vofs, .lo => .bg3vofsLo acc
  | .bg3vofs, .hi => .bg3vofsHi acc
  | .win0h, .lo => .win0hLo acc
  | .win0h, .hi => .win0hHi acc
  | .win1h, .lo => .win1hLo acc
  | .win1h, .hi => .win1hHi acc
  | .win0v, .lo => .win0vLo acc
  | .win0v, .hi => .win0vHi acc
  | .win1v, .lo => .win1vLo acc
  | .win1v, .hi => .win1vHi acc
  | .winin, .lo => .wininLo acc
  | .winin, .hi => .wininHi acc
  | .winout, .lo => .winoutLo acc
  | .winout, .hi => .winoutHi acc
  | .mosaic, .lo => .mosaicLo acc
  | .mosaic, .hi => .mosaicHi acc
  | .bldcnt, .lo => .bldcntLo acc
  | .bldcnt, .hi => .bldcntHi acc
  | .bldalpha, .lo => .bldalphaLo acc
  | .bldalpha, .hi => .bldalphaHi acc
  | .bldy, .lo => .bldyLo acc
  | .bldy, .hi => .bldyHi acc

/-- The bus address of each `LANE` row, as R73 and spec/opcode_table.json list it. -/
def laneRowAddr (r : Reg) (l : Lane) : Nat :=
  match r, l with
  | .dispcnt, .lo => 0x04000000
  | .dispcnt, .hi => 0x04000001
  | .dispstat, .lo => 0x04000004
  | .dispstat, .hi => 0x04000005
  | .vcount, .lo => 0x04000006
  | .vcount, .hi => 0x04000007
  | .bg0cnt, .lo => 0x04000008
  | .bg0cnt, .hi => 0x04000009
  | .bg1cnt, .lo => 0x0400000A
  | .bg1cnt, .hi => 0x0400000B
  | .bg2cnt, .lo => 0x0400000C
  | .bg2cnt, .hi => 0x0400000D
  | .bg3cnt, .lo => 0x0400000E
  | .bg3cnt, .hi => 0x0400000F
  | .bg0hofs, .lo => 0x04000010
  | .bg0hofs, .hi => 0x04000011
  | .bg0vofs, .lo => 0x04000012
  | .bg0vofs, .hi => 0x04000013
  | .bg1hofs, .lo => 0x04000014
  | .bg1hofs, .hi => 0x04000015
  | .bg1vofs, .lo => 0x04000016
  | .bg1vofs, .hi => 0x04000017
  | .bg2hofs, .lo => 0x04000018
  | .bg2hofs, .hi => 0x04000019
  | .bg2vofs, .lo => 0x0400001A
  | .bg2vofs, .hi => 0x0400001B
  | .bg3hofs, .lo => 0x0400001C
  | .bg3hofs, .hi => 0x0400001D
  | .bg3vofs, .lo => 0x0400001E
  | .bg3vofs, .hi => 0x0400001F
  | .win0h, .lo => 0x04000040
  | .win0h, .hi => 0x04000041
  | .win1h, .lo => 0x04000042
  | .win1h, .hi => 0x04000043
  | .win0v, .lo => 0x04000044
  | .win0v, .hi => 0x04000045
  | .win1v, .lo => 0x04000046
  | .win1v, .hi => 0x04000047
  | .winin, .lo => 0x04000048
  | .winin, .hi => 0x04000049
  | .winout, .lo => 0x0400004A
  | .winout, .hi => 0x0400004B
  | .mosaic, .lo => 0x0400004C
  | .mosaic, .hi => 0x0400004D
  | .bldcnt, .lo => 0x04000050
  | .bldcnt, .hi => 0x04000051
  | .bldalpha, .lo => 0x04000052
  | .bldalpha, .hi => 0x04000053
  | .bldy, .lo => 0x04000054
  | .bldy, .hi => 0x04000055

/-- One row of the decode table of R73. -/
structure LaneRow where
  addr : Nat
  reg : Reg
  lane : Lane
  deriving DecidableEq, Repr

/-- The 50 `LANE` rows in the table's order (R73). -/
def laneRows : List LaneRow :=
  Reg.all.flatMap fun r => [⟨laneRowAddr r .lo, r, .lo⟩, ⟨laneRowAddr r .hi, r, .hi⟩]

/-- The row an address matches in all 32 bits, if any (R82). -/
def findRow (a : Nat) : List LaneRow → Option LaneRow
  | [] => none
  | row :: rows => if row.addr = a then some row else findRow a rows

/-- The register a `regid` numbers (R11): 0 to 24. -/
def Reg.ofId? (n : Nat) : Option Reg := Reg.all[n]?

/-- A register's `regid` (R11). -/
def Reg.id : Reg → Nat
  | .dispcnt => 0
  | .dispstat => 1
  | .vcount => 2
  | .bg0cnt => 3
  | .bg1cnt => 4
  | .bg2cnt => 5
  | .bg3cnt => 6
  | .bg0hofs => 7
  | .bg0vofs => 8
  | .bg1hofs => 9
  | .bg1vofs => 10
  | .bg2hofs => 11
  | .bg2vofs => 12
  | .bg3hofs => 13
  | .bg3vofs => 14
  | .win0h => 15
  | .win1h => 16
  | .win0v => 17
  | .win1v => 18
  | .winin => 19
  | .winout => 20
  | .mosaic => 21
  | .bldcnt => 22
  | .bldalpha => 23
  | .bldy => 24

/-- `W[51:48]` (R77). -/
def wordOp (w : BitVec 52) : Nat := (w.extractLsb 51 48).toNat

/-- `W[47:16]` (R77). -/
def wordAddr (w : BitVec 52) : Nat := (w.extractLsb 47 16).toNat

/-- `W[15:0]` (R77). -/
def wordData (w : BitVec 52) : Nat := (w.extractLsb 15 0).toNat

/-- The decoder of the transaction word: total on all `2 ^ 52` words, ignoring the fields the operation does not use
(R77, R78 (c)). -/
def decodeWord (w : BitVec 52) : WordDecode :=
  match wordOp w with
  | 0 => .operation .reset
  | 1 => .operation (.rdb (wordAddr w))
  | 2 => .operation (.wrb (wordAddr w) (wordData w))
  | 3 =>
    match Reg.ofId? (wordAddr w) with
    | some r => .operation r.getOp
    | none => .invalid (.noSuchRegister (wordAddr w))
  | 4 => .operation (.setvcount (wordData w))
  | op => .invalid (.reservedOp op)

/-- The access of a bus cycle: a write of bits 47:32 where bit 48 is set, else a read. -/
def cycleAccess (w : BitVec 49) : BusAccess :=
  if w.getLsbD 48 then .write (w.extractLsb 47 32).toNat else .read

/-- The address of a bus cycle, bits 31:0. -/
def cycleAddr (w : BitVec 49) : Nat := (w.extractLsb 31 0).toNat

/-- The byte access at an address no `LANE` row lists. -/
def accessOp (a : Nat) : BusAccess → Instr
  | .read => .rdb a
  | .write v => .wrb a v

/-- The decoder of a bus cycle: an address equal to a row's is that row's access, and every other address is a plain
`RDB` or `WRB` there (R82). -/
def decodeCycle (w : BitVec 49) : Instr :=
  match findRow (cycleAddr w) laneRows with
  | some row => laneOp row.reg row.lane (cycleAccess w)
  | none => accessOp (cycleAddr w) (cycleAccess w)

/-- The decoder of whatever an agent presents. -/
def Presented.decode : Presented → WordDecode
  | .op w => decodeWord w
  | .cycle w => .operation (decodeCycle w)

/-- The transaction word with the given fields, most significant first (R77). An operand wider than its field, which only
a configuration with `ADDR_WIDTH` above 32 or `DATA_IN_WIDTH` above 16 admits, is cut to the field's low bits: R77 gives
such an operand no word, so what stands here for it is the model's choice (DESIGN CHOICE, log entry 16). -/
def opWord (op addr data : Nat) : BitVec 52 :=
  BitVec.ofNat 4 op ++ BitVec.ofNat 32 addr ++ BitVec.ofNat 16 data

/-- The bus cycle with the given access at the given address (log entry 3). A value above 16 bits is cut to its low 16
(DESIGN CHOICE, log entry 16). -/
def cycleWord (a : Nat) : BusAccess → BitVec 49
  | .read => BitVec.ofNat 1 0 ++ BitVec.ofNat 16 0 ++ BitVec.ofNat 32 a
  | .write v => BitVec.ofNat 1 1 ++ BitVec.ofNat 16 v ++ BitVec.ofNat 32 a

/-- The encoder: the canonical word of an operation well formed under the default widths, ignored fields written as 0
(R77). Under wider widths the word of an operand that does not fit its field is another operation's (DESIGN CHOICE, log
entry 16). -/
def encode (i : Instr) : Presented :=
  match i.kind with
  | .reset => .op (opWord 0 0 0)
  | .rdb a => .op (opWord 1 a 0)
  | .wrb a v => .op (opWord 2 a v)
  | .get r => .op (opWord 3 r.id 0)
  | .setvcount v => .op (opWord 4 0 v)
  | .lane r l acc => .cycle (cycleWord (laneRowAddr r l) acc)

/-- The operation presented by a word of spec/opcode_table.json: a row of at most 32 bits is a `LANE` row, whose missing
operand bits are 0 (a read); a wider row is an `OP` row of 52 bits, to which the bits above bit 51 do not belong. -/
def Presented.ofTable (nbits w : Nat) : Presented :=
  if nbits ≤ 32 then .cycle (BitVec.ofNat 49 w) else .op (BitVec.ofNat 52 w)

/-- The operation the decoder reads from a word numbered as spec/opcode_table.json numbers it. -/
def decodeTableWord (nbits w : Nat) : Option Instr :=
  match (Presented.ofTable nbits w).decode with
  | .operation i => some i
  | .invalid _ => none

end Sys2Proof
end

