-- ==== Sys2Proof/Machine/AddressMap.lean ====
section
/-! DEFINITION. The address map: reading and replacing one entry of a per-register record, the default `OFFSET_TABLE`
(spec/10_state.md R16), the constraints every table meets (R15), and the address decoder (spec/30_encoding.md R71, R72). -/

namespace Sys2Proof

/-- The entry of one register: `reg[X]` of R7 where the record is the bank. -/
def PerReg.get {α : Type} (p : PerReg α) : Reg → α
  | .dispcnt => p.dispcnt
  | .dispstat => p.dispstat
  | .vcount => p.vcount
  | .bg0cnt => p.bg0cnt
  | .bg1cnt => p.bg1cnt
  | .bg2cnt => p.bg2cnt
  | .bg3cnt => p.bg3cnt
  | .bg0hofs => p.bg0hofs
  | .bg0vofs => p.bg0vofs
  | .bg1hofs => p.bg1hofs
  | .bg1vofs => p.bg1vofs
  | .bg2hofs => p.bg2hofs
  | .bg2vofs => p.bg2vofs
  | .bg3hofs => p.bg3hofs
  | .bg3vofs => p.bg3vofs
  | .win0h => p.win0h
  | .win1h => p.win1h
  | .win0v => p.win0v
  | .win1v => p.win1v
  | .winin => p.winin
  | .winout => p.winout
  | .mosaic => p.mosaic
  | .bldcnt => p.bldcnt
  | .bldalpha => p.bldalpha
  | .bldy => p.bldy

/-- The record with the entry of one register replaced: `reg[X] <- v` of R7 where the record is the bank. -/
def PerReg.set {α : Type} (p : PerReg α) (r : Reg) (v : α) : PerReg α :=
  match r with
  | .dispcnt => { p with dispcnt := v }
  | .dispstat => { p with dispstat := v }
  | .vcount => { p with vcount := v }
  | .bg0cnt => { p with bg0cnt := v }
  | .bg1cnt => { p with bg1cnt := v }
  | .bg2cnt => { p with bg2cnt := v }
  | .bg3cnt => { p with bg3cnt := v }
  | .bg0hofs => { p with bg0hofs := v }
  | .bg0vofs => { p with bg0vofs := v }
  | .bg1hofs => { p with bg1hofs := v }
  | .bg1vofs => { p with bg1vofs := v }
  | .bg2hofs => { p with bg2hofs := v }
  | .bg2vofs => { p with bg2vofs := v }
  | .bg3hofs => { p with bg3hofs := v }
  | .bg3vofs => { p with bg3vofs := v }
  | .win0h => { p with win0h := v }
  | .win1h => { p with win1h := v }
  | .win0v => { p with win0v := v }
  | .win1v => { p with win1v := v }
  | .winin => { p with winin := v }
  | .winout => { p with winout := v }
  | .mosaic => { p with mosaic := v }
  | .bldcnt => { p with bldcnt := v }
  | .bldalpha => { p with bldalpha := v }
  | .bldy => { p with bldy := v }

namespace Machine

/-- The default `OFFSET_TABLE` (R16; decision D2 of the spec, log entry 1). -/
def defaultOffsets : OffsetTable where
  dispcnt := 0x00
  dispstat := 0x04
  vcount := 0x06
  bg0cnt := 0x08
  bg1cnt := 0x0A
  bg2cnt := 0x0C
  bg3cnt := 0x0E
  bg0hofs := 0x10
  bg0vofs := 0x12
  bg1hofs := 0x14
  bg1vofs := 0x16
  bg2hofs := 0x18
  bg2vofs := 0x1A
  bg3hofs := 0x1C
  bg3vofs := 0x1E
  win0h := 0x40
  win1h := 0x42
  win0v := 0x44
  win1v := 0x46
  winin := 0x48
  winout := 0x4A
  mosaic := 0x4C
  bldcnt := 0x50
  bldalpha := 0x52
  bldy := 0x54

/-- The default configuration: every parameter at the default of R4. -/
abbrev defaultConfig : Config where
  addrWidth := 32
  dataInWidth := 16
  offsets := defaultOffsets
  diagEnable := true

/-- The bus address of a register's lane: `IO_BASE + OFFSET_TABLE(X)`, plus 1 for the high lane (R51, R80). -/
def laneAddr (t : OffsetTable) (r : Reg) (l : Lane) : Nat :=
  ioBase + t.get r + l.offset

/-- The constraints of R15 on a table: (a) every base is even; (c) the bases are distinct; (d) every lane lies in the
region; (e) and (f) the two bases the source states; (g) some register ends the region. Clause (b) is `laneAddr`. -/
abbrev tableOk (t : OffsetTable) : Prop :=
  (∀ r ∈ Reg.all, t.get r % 2 = 0) ∧
  (Reg.all.map t.get).Nodup ∧
  (∀ r ∈ Reg.all, t.get r ≤ 0x54) ∧
  t.get .dispcnt = 0x00 ∧
  t.get .bg0cnt = 0x08 ∧
  (∃ r ∈ Reg.all, t.get r = 0x54)

/-- A configuration the rules hold for: the table meets R15, an address can hold the region's last address (27 bits, D1)
and a value has at least the 8 bits of a lane (R4). -/
abbrev configOk (c : Config) : Prop :=
  tableOk c.offsets ∧ 27 ≤ c.addrWidth ∧ 8 ≤ c.dataInWidth

/-- What the address decoder answers: `Mapped(X, lane)` or `Unmapped` (R72). -/
inductive Target where
  | mapped (r : Reg) (l : Lane)
  | unmapped
  deriving DecidableEq, Repr

/-- The search of R72 over a list of registers: the first whose low or high lane sits at the offset. -/
def findLane (t : OffsetTable) (off : Nat) : List Reg → Target
  | [] => .unmapped
  | r :: rs =>
    if off = t.get r then .mapped r .lo
    else if off = t.get r + 1 then .mapped r .hi
    else findLane t off rs

/-- The address decoder (R72): total, static, and a function of the table and the address alone. An address of any size
is compared whole, so one of `2 ^ 32` or more is unmapped (R53). -/
def decodeAddr (t : OffsetTable) (a : Nat) : Target :=
  if a < ioBase ∨ regionEnd < a then .unmapped
  else findLane t (a - ioBase) Reg.all

/-- `a[31:7]` (R71). -/
def addrTag (a : BitVec 32) : BitVec 25 := a.extractLsb 31 7

/-- `a[6:1]` (R71). -/
def addrSlot (a : BitVec 32) : BitVec 6 := a.extractLsb 6 1

/-- `a[0]` (R71): 0 selects the low lane, 1 the high lane. -/
def addrLane (a : BitVec 32) : Lane := if a.getLsbD 0 then .hi else .lo

/-- The register whose base offset is twice the slot (R71). -/
def findSlot (t : OffsetTable) (slot : Nat) : List Reg → Option Reg
  | [] => none
  | r :: rs => if t.get r = 2 * slot then some r else findSlot t slot rs

/-- The field view of the decoder (R71): the tag must be `0x0080000`, the slot selects the register and bit 0 the lane.
The machine does not use it; a statement says that it computes `decodeAddr`. -/
def decodeByFields (t : OffsetTable) (a : BitVec 32) : Target :=
  if addrTag a = 0x0080000 then
    match findSlot t (addrSlot a).toNat Reg.all with
    | some r => .mapped r (addrLane a)
    | none => .unmapped
  else .unmapped

end Machine

end Sys2Proof
end

