-- ==== Sys2Proof/Machine/Operands.lean ====
section
/-! DEFINITION. Operand assembly (spec/30_encoding.md R74, R75, R76) and the lane arithmetic of
spec/40_bus_byte_access.md R90, R91: all the arithmetic the block has (R92). -/

namespace Sys2Proof.Machine

/-- The value operand of a byte write, reduced to its low 8 bits (R74). -/
def maskByte (v : Nat) : Byte := BitVec.ofNat 8 v

/-- The value operand of `SETVCOUNT`, reduced to its low 16 bits (R76). -/
def maskHalf (v : Nat) : Half := BitVec.ofNat 16 v

/-- The byte a lane of a register holds (R90): `reg & 0x00FF`, or `(reg >> 8) & 0x00FF`, as 8 bits. -/
def laneOf (x : Half) : Lane → Byte
  | .lo => (x &&& 0x00FF#16).setWidth 8
  | .hi => ((x >>> 8) &&& 0x00FF#16).setWidth 8

/-- A register with one lane replaced and the other preserved (R91): `(reg & 0xFF00) | v`, or
`(reg & 0x00FF) | (v << 8)`. -/
def setLane (x : Half) (l : Lane) (v : Byte) : Half :=
  match l with
  | .lo => (x &&& 0xFF00#16) ||| v.setWidth 16
  | .hi => (x &&& 0x00FF#16) ||| (v.setWidth 16 <<< 8)

/-- A register assembled from its two bytes: `(hi << 8) | lo` (R54). -/
def assemble (hi lo : Byte) : Half := (hi.setWidth 16 <<< 8) ||| lo.setWidth 16

/-- Where every register of the bank is after reset: `DISPCNT` is `0x0080`, the other 24 are `0x0000` (R14). -/
def powerOnBank : Bank where
  dispcnt := 0x0080
  dispstat := 0x0000
  vcount := 0x0000
  bg0cnt := 0x0000
  bg1cnt := 0x0000
  bg2cnt := 0x0000
  bg3cnt := 0x0000
  bg0hofs := 0x0000
  bg0vofs := 0x0000
  bg1hofs := 0x0000
  bg1vofs := 0x0000
  bg2hofs := 0x0000
  bg2vofs := 0x0000
  bg3hofs := 0x0000
  bg3vofs := 0x0000
  win0h := 0x0000
  win1h := 0x0000
  win0v := 0x0000
  win1v := 0x0000
  winin := 0x0000
  winout := 0x0000
  mosaic := 0x0000
  bldcnt := 0x0000
  bldalpha := 0x0000
  bldy := 0x0000

end Sys2Proof.Machine
end

