-- ==== Sys2Proof/Machine/State.lean ====
section
/-! DEFINITION. The state of the machine as plain data. The bank is the block's complete architectural state
(spec/10_state.md R10, R42). The three other fields are this model's own, because the host's step takes no configuration,
no operation and gives no output: the configuration (a parameter in R5, never changed by a step), the operations
presented and not yet taken, and the output records produced so far. -/

namespace Sys2Proof.Machine

/-- The access kind a notice identifies (R143). -/
inductive AccessKind where
  | read | write
  deriving DecidableEq, Repr

/-- One diagnostic notice, `Diag(kind, a)` with the whole address as presented (R143). -/
structure Diag where
  kind : AccessKind
  addr : Nat
  deriving DecidableEq, Repr

/-- The result of a read: 8 bits from `RDB` (R75), 16 bits from a getter (R100). -/
inductive ReadValue where
  | byte (v : Byte)
  | half (v : Half)
  deriving DecidableEq, Repr

/-- The output record of one operation: an optional read value and at most one notice (R5, R143). -/
structure Output where
  value : Option ReadValue
  notice : Option Diag
  deriving DecidableEq, Repr

/-- The state. -/
structure State where
  /-- The model's own: the configuration record of R4; no operation changes it. -/
  cfg : Config
  /-- The 25 registers (R10, R11). -/
  bank : Bank
  /-- The model's own: the operations the agents present, in the order they arrive (R5, R60). -/
  inbox : List Presented
  /-- The model's own: the output records of the operations done, in their order (R43, R143). -/
  outputs : List Output
  deriving DecidableEq, Repr

/-- The block has no fault: every operation completes normally (R140, R147). The type has no constructor. -/
inductive Fault where
  deriving DecidableEq, Repr

/-- Why a step is refused. -/
inductive Refusal where
  /-- Raised by no arm of `exec`: every row of the table has its meaning. Safe. -/
  | notModelled (mnemonic : String)
  /-- Raised by `step` when the word presented spells no operation of the bank (R78 (c)): the bank is never stepped with
  it. Safe. -/
  | invalidWord (e : WordError)
  deriving DecidableEq, Repr

/-- Construction (R132): the reset state of R14 together with a configuration. -/
def State.construct (c : Config) : State :=
  { cfg := c, bank := powerOnBank, inbox := [], outputs := [] }

/-- Construction from a supplied configuration, which is checked against R15 and R4 first. -/
def State.construct? (c : Config) : Option State :=
  if configOk c then some (State.construct c) else none

/-- The machine right after reset, under the default configuration (R14, R161, R162). -/
def State.reset : State := State.construct defaultConfig

end Sys2Proof.Machine
end

