-- ==== Sys2Proof/Machine/Ops.lean ====
section
/-! DEFINITION. The shared operations: completing an operation, the byte read and byte write of the bus
(spec/40_bus_byte_access.md R90, R91), the unmapped-access fallback that is the block's one error class
(spec/60_exceptions.md R140 to R144), the whole-register read port (R100) and the taking of the next presented operation. -/

namespace Sys2Proof.Machine

/-- The outcome type of a step. -/
abbrev Result := Host.Outcome State Fault Refusal

/-- The state after one operation: the bank it leaves, and its one output record added at the end (R5, R143). -/
def State.finish (s : State) (b : Bank) (o : Output) : State :=
  { s with bank := b, outputs := s.outputs ++ [o] }

/-- Every operation completes normally (R81, R147). -/
def complete (b : Bank) (o : Output) (s : State) : Result := .next (s.finish b o)

/-- The notice of an unmapped access: emitted on every one when `DIAG_ENABLE` is set, and never otherwise (R143, R144). -/
def unmappedNotice (c : Config) (k : AccessKind) (a : Nat) : Option Diag :=
  if c.diagEnable then some ⟨k, a⟩ else none

/-- What `RDB a` delivers (R90): the byte of the lane, or `0x00` with a notice where the address is unmapped (R141). -/
def readByte (c : Config) (b : Bank) (a : Nat) : Byte × Option Diag :=
  match decodeAddr c.offsets a with
  | .mapped r l => (laneOf (b.get r) l, none)
  | .unmapped => (unmappedReadValue, unmappedNotice c .read a)

/-- What `WRB a, v` leaves (R91): one lane replaced by the low 8 bits of `v`, or nothing changed and a notice where the
address is unmapped (R142). -/
def writeByte (c : Config) (b : Bank) (a v : Nat) : Bank × Option Diag :=
  match decodeAddr c.offsets a with
  | .mapped r l => (b.set r (setLane (b.get r) l (maskByte v)), none)
  | .unmapped => (b, unmappedNotice c .write a)

/-- The byte a read of one bus address delivers: the bus view of the state. -/
def State.busByte (s : State) (a : Nat) : Byte := (readByte s.cfg s.bank a).1

/-- A byte read of the bus as a whole operation (R90). -/
def busRead (a : Nat) (s : State) : Result :=
  complete s.bank ⟨some (.byte (readByte s.cfg s.bank a).1), (readByte s.cfg s.bank a).2⟩ s

/-- A byte write of the bus as a whole operation (R91). -/
def busWrite (a v : Nat) (s : State) : Result :=
  complete (writeByte s.cfg s.bank a v).1 ⟨none, (writeByte s.cfg s.bank a v).2⟩ s

/-- The byte access a `LANE` row presents at its address (R82; log entry 3). -/
def laneAccess (r : Reg) (l : Lane) (acc : BusAccess) (s : State) : Result :=
  match acc with
  | .read => busRead (laneRowAddr r l) s
  | .write v => busWrite (laneRowAddr r l) v s

/-- A whole-register read port (R100): the full 16 bits, no notice, no register changed. -/
def readPort (r : Reg) (s : State) : Result :=
  complete s.bank ⟨some (.half (s.bank.get r)), none⟩ s

/-- What the bank finds when it looks for the next operation (R5). -/
inductive Fetched where
  /-- No operation is presented: the bank is passive. -/
  | idle
  /-- The operation presented first, and those still waiting. -/
  | run (i : Instr) (rest : List Presented)
  /-- A word that spells no operation (R78 (c)). -/
  | invalid (e : WordError)
  deriving DecidableEq, Repr

/-- Take the operation presented first and decode it. -/
def fetch (s : State) : Fetched :=
  match s.inbox with
  | [] => .idle
  | p :: rest =>
    match p.decode with
    | .operation i => .run i rest
    | .invalid e => .invalid e

/-- The state with other operations waiting. -/
def State.withInbox (s : State) (ps : List Presented) : State := { s with inbox := ps }

end Sys2Proof.Machine
end

