-- ==== Sys2Proof/Machine/Bus.lean ====
section
/-! DEFINITION. The meanings of `RDB` and `WRB` (spec/40_bus_byte_access.md). -/

namespace Sys2Proof.Machine

/-- `RDB a` (R90). -/
def execRdb (a : Nat) (s : State) : Result := busRead a s

/-- `WRB a, v` (R91). -/
def execWrb (a v : Nat) (s : State) : Result := busWrite a v s

end Sys2Proof.Machine
end

