-- ==== Sys2Proof/Machine/Getters.lean ====
section
/-! DEFINITION. The meanings of the 25 whole-register accessors (spec/41_whole_register_getters.md): each returns the
register it names and changes nothing (R100). -/

namespace Sys2Proof.Machine

/-- `GET.DISPCNT` (R101). -/
def execGetDispcnt (s : State) : Result := readPort .dispcnt s

/-- `GET.DISPSTAT` (R102). -/
def execGetDispstat (s : State) : Result := readPort .dispstat s

/-- `GET.VCOUNT` (R103). -/
def execGetVcount (s : State) : Result := readPort .vcount s

/-- `GET.BG0CNT` (R104). -/
def execGetBg0cnt (s : State) : Result := readPort .bg0cnt s

/-- `GET.BG1CNT` (R105). -/
def execGetBg1cnt (s : State) : Result := readPort .bg1cnt s

/-- `GET.BG2CNT` (R106). -/
def execGetBg2cnt (s : State) : Result := readPort .bg2cnt s

/-- `GET.BG3CNT` (R107). -/
def execGetBg3cnt (s : State) : Result := readPort .bg3cnt s

/-- `GET.BG0HOFS` (R108). -/
def execGetBg0hofs (s : State) : Result := readPort .bg0hofs s

/-- `GET.BG0VOFS` (R109). -/
def execGetBg0vofs (s : State) : Result := readPort .bg0vofs s

/-- `GET.BG1HOFS` (R110). -/
def execGetBg1hofs (s : State) : Result := readPort .bg1hofs s

/-- `GET.BG1VOFS` (R111). -/
def execGetBg1vofs (s : State) : Result := readPort .bg1vofs s

/-- `GET.BG2HOFS` (R112). -/
def execGetBg2hofs (s : State) : Result := readPort .bg2hofs s

/-- `GET.BG2VOFS` (R113). -/
def execGetBg2vofs (s : State) : Result := readPort .bg2vofs s

/-- `GET.BG3HOFS` (R114). -/
def execGetBg3hofs (s : State) : Result := readPort .bg3hofs s

/-- `GET.BG3VOFS` (R115). -/
def execGetBg3vofs (s : State) : Result := readPort .bg3vofs s

/-- `GET.WIN0H` (R116). -/
def execGetWin0h (s : State) : Result := readPort .win0h s

/-- `GET.WIN1H` (R117). -/
def execGetWin1h (s : State) : Result := readPort .win1h s

/-- `GET.WIN0V` (R118). -/
def execGetWin0v (s : State) : Result := readPort .win0v s

/-- `GET.WIN1V` (R119). -/
def execGetWin1v (s : State) : Result := readPort .win1v s

/-- `GET.WININ` (R120). -/
def execGetWinin (s : State) : Result := readPort .winin s

/-- `GET.WINOUT` (R121). -/
def execGetWinout (s : State) : Result := readPort .winout s

/-- `GET.MOSAIC` (R122). -/
def execGetMosaic (s : State) : Result := readPort .mosaic s

/-- `GET.BLDCNT` (R123). -/
def execGetBldcnt (s : State) : Result := readPort .bldcnt s

/-- `GET.BLDALPHA` (R124). -/
def execGetBldalpha (s : State) : Result := readPort .bldalpha s

/-- `GET.BLDY` (R125). -/
def execGetBldy (s : State) : Result := readPort .bldy s

end Sys2Proof.Machine
end

