-- ==== Sys2Proof/Machine/Lanes.lean ====
section
/-! DEFINITION. The meanings of the 50 `LANE` rows (spec/30_encoding.md R73, R82): the byte access of R90 or R91 presented
at the row's bus address, decoded there like any other access. -/

namespace Sys2Proof.Machine

/-- `DISPCNT.lo`, bus address 0x04000000 (R17). -/
def execDispcntLo (acc : BusAccess) (s : State) : Result := laneAccess .dispcnt .lo acc s

/-- `DISPCNT.hi`, bus address 0x04000001 (R17). -/
def execDispcntHi (acc : BusAccess) (s : State) : Result := laneAccess .dispcnt .hi acc s

/-- `DISPSTAT.lo`, bus address 0x04000004 (R18). -/
def execDispstatLo (acc : BusAccess) (s : State) : Result := laneAccess .dispstat .lo acc s

/-- `DISPSTAT.hi`, bus address 0x04000005 (R18). -/
def execDispstatHi (acc : BusAccess) (s : State) : Result := laneAccess .dispstat .hi acc s

/-- `VCOUNT.lo`, bus address 0x04000006 (R19). -/
def execVcountLo (acc : BusAccess) (s : State) : Result := laneAccess .vcount .lo acc s

/-- `VCOUNT.hi`, bus address 0x04000007 (R19). -/
def execVcountHi (acc : BusAccess) (s : State) : Result := laneAccess .vcount .hi acc s

/-- `BG0CNT.lo`, bus address 0x04000008 (R20). -/
def execBg0cntLo (acc : BusAccess) (s : State) : Result := laneAccess .bg0cnt .lo acc s

/-- `BG0CNT.hi`, bus address 0x04000009 (R20). -/
def execBg0cntHi (acc : BusAccess) (s : State) : Result := laneAccess .bg0cnt .hi acc s

/-- `BG1CNT.lo`, bus address 0x0400000A (R21). -/
def execBg1cntLo (acc : BusAccess) (s : State) : Result := laneAccess .bg1cnt .lo acc s

/-- `BG1CNT.hi`, bus address 0x0400000B (R21). -/
def execBg1cntHi (acc : BusAccess) (s : State) : Result := laneAccess .bg1cnt .hi acc s

/-- `BG2CNT.lo`, bus address 0x0400000C (R22). -/
def execBg2cntLo (acc : BusAccess) (s : State) : Result := laneAccess .bg2cnt .lo acc s

/-- `BG2CNT.hi`, bus address 0x0400000D (R22). -/
def execBg2cntHi (acc : BusAccess) (s : State) : Result := laneAccess .bg2cnt .hi acc s

/-- `BG3CNT.lo`, bus address 0x0400000E (R23). -/
def execBg3cntLo (acc : BusAccess) (s : State) : Result := laneAccess .bg3cnt .lo acc s

/-- `BG3CNT.hi`, bus address 0x0400000F (R23). -/
def execBg3cntHi (acc : BusAccess) (s : State) : Result := laneAccess .bg3cnt .hi acc s

/-- `BG0HOFS.lo`, bus address 0x04000010 (R24). -/
def execBg0hofsLo (acc : BusAccess) (s : State) : Result := laneAccess .bg0hofs .lo acc s

/-- `BG0HOFS.hi`, bus address 0x04000011 (R24). -/
def execBg0hofsHi (acc : BusAccess) (s : State) : Result := laneAccess .bg0hofs .hi acc s

/-- `BG0VOFS.lo`, bus address 0x04000012 (R25). -/
def execBg0vofsLo (acc : BusAccess) (s : State) : Result := laneAccess .bg0vofs .lo acc s

/-- `BG0VOFS.hi`, bus address 0x04000013 (R25). -/
def execBg0vofsHi (acc : BusAccess) (s : State) : Result := laneAccess .bg0vofs .hi acc s

/-- `BG1HOFS.lo`, bus address 0x04000014 (R26). -/
def execBg1hofsLo (acc : BusAccess) (s : State) : Result := laneAccess .bg1hofs .lo acc s

/-- `BG1HOFS.hi`, bus address 0x04000015 (R26). -/
def execBg1hofsHi (acc : BusAccess) (s : State) : Result := laneAccess .bg1hofs .hi acc s

/-- `BG1VOFS.lo`, bus address 0x04000016 (R27). -/
def execBg1vofsLo (acc : BusAccess) (s : State) : Result := laneAccess .bg1vofs .lo acc s

/-- `BG1VOFS.hi`, bus address 0x04000017 (R27). -/
def execBg1vofsHi (acc : BusAccess) (s : State) : Result := laneAccess .bg1vofs .hi acc s

/-- `BG2HOFS.lo`, bus address 0x04000018 (R28). -/
def execBg2hofsLo (acc : BusAccess) (s : State) : Result := laneAccess .bg2hofs .lo acc s

/-- `BG2HOFS.hi`, bus address 0x04000019 (R28). -/
def execBg2hofsHi (acc : BusAccess) (s : State) : Result := laneAccess .bg2hofs .hi acc s

/-- `BG2VOFS.lo`, bus address 0x0400001A (R29). -/
def execBg2vofsLo (acc : BusAccess) (s : State) : Result := laneAccess .bg2vofs .lo acc s

/-- `BG2VOFS.hi`, bus address 0x0400001B (R29). -/
def execBg2vofsHi (acc : BusAccess) (s : State) : Result := laneAccess .bg2vofs .hi acc s

/-- `BG3HOFS.lo`, bus address 0x0400001C (R30). -/
def execBg3hofsLo (acc : BusAccess) (s : State) : Result := laneAccess .bg3hofs .lo acc s

/-- `BG3HOFS.hi`, bus address 0x0400001D (R30). -/
def execBg3hofsHi (acc : BusAccess) (s : State) : Result := laneAccess .bg3hofs .hi acc s

/-- `BG3VOFS.lo`, bus address 0x0400001E (R31). -/
def execBg3vofsLo (acc : BusAccess) (s : State) : Result := laneAccess .bg3vofs .lo acc s

/-- `BG3VOFS.hi`, bus address 0x0400001F (R31). -/
def execBg3vofsHi (acc : BusAccess) (s : State) : Result := laneAccess .bg3vofs .hi acc s

/-- `WIN0H.lo`, bus address 0x04000040 (R32). -/
def execWin0hLo (acc : BusAccess) (s : State) : Result := laneAccess .win0h .lo acc s

/-- `WIN0H.hi`, bus address 0x04000041 (R32). -/
def execWin0hHi (acc : BusAccess) (s : State) : Result := laneAccess .win0h .hi acc s

/-- `WIN1H.lo`, bus address 0x04000042 (R33). -/
def execWin1hLo (acc : BusAccess) (s : State) : Result := laneAccess .win1h .lo acc s

/-- `WIN1H.hi`, bus address 0x04000043 (R33). -/
def execWin1hHi (acc : BusAccess) (s : State) : Result := laneAccess .win1h .hi acc s

/-- `WIN0V.lo`, bus address 0x04000044 (R34). -/
def execWin0vLo (acc : BusAccess) (s : State) : Result := laneAccess .win0v .lo acc s

/-- `WIN0V.hi`, bus address 0x04000045 (R34). -/
def execWin0vHi (acc : BusAccess) (s : State) : Result := laneAccess .win0v .hi acc s

/-- `WIN1V.lo`, bus address 0x04000046 (R35). -/
def execWin1vLo (acc : BusAccess) (s : State) : Result := laneAccess .win1v .lo acc s

/-- `WIN1V.hi`, bus address 0x04000047 (R35). -/
def execWin1vHi (acc : BusAccess) (s : State) : Result := laneAccess .win1v .hi acc s

/-- `WININ.lo`, bus address 0x04000048 (R36). -/
def execWininLo (acc : BusAccess) (s : State) : Result := laneAccess .winin .lo acc s

/-- `WININ.hi`, bus address 0x04000049 (R36). -/
def execWininHi (acc : BusAccess) (s : State) : Result := laneAccess .winin .hi acc s

/-- `WINOUT.lo`, bus address 0x0400004A (R37). -/
def execWinoutLo (acc : BusAccess) (s : State) : Result := laneAccess .winout .lo acc s

/-- `WINOUT.hi`, bus address 0x0400004B (R37). -/
def execWinoutHi (acc : BusAccess) (s : State) : Result := laneAccess .winout .hi acc s

/-- `MOSAIC.lo`, bus address 0x0400004C (R38). -/
def execMosaicLo (acc : BusAccess) (s : State) : Result := laneAccess .mosaic .lo acc s

/-- `MOSAIC.hi`, bus address 0x0400004D (R38). -/
def execMosaicHi (acc : BusAccess) (s : State) : Result := laneAccess .mosaic .hi acc s

/-- `BLDCNT.lo`, bus address 0x04000050 (R39). -/
def execBldcntLo (acc : BusAccess) (s : State) : Result := laneAccess .bldcnt .lo acc s

/-- `BLDCNT.hi`, bus address 0x04000051 (R39). -/
def execBldcntHi (acc : BusAccess) (s : State) : Result := laneAccess .bldcnt .hi acc s

/-- `BLDALPHA.lo`, bus address 0x04000052 (R40). -/
def execBldalphaLo (acc : BusAccess) (s : State) : Result := laneAccess .bldalpha .lo acc s

/-- `BLDALPHA.hi`, bus address 0x04000053 (R40). -/
def execBldalphaHi (acc : BusAccess) (s : State) : Result := laneAccess .bldalpha .hi acc s

/-- `BLDY.lo`, bus address 0x04000054 (R41). -/
def execBldyLo (acc : BusAccess) (s : State) : Result := laneAccess .bldy .lo acc s

/-- `BLDY.hi`, bus address 0x04000055 (R41). -/
def execBldyHi (acc : BusAccess) (s : State) : Result := laneAccess .bldy .hi acc s

end Sys2Proof.Machine
end

