-- ==== Sys2Proof/Machine/System.lean ====
section
/-! DEFINITION. The meanings of `RESET` and `SETVCOUNT` (spec/42_system_ops.md). -/

namespace Sys2Proof.Machine

/-- `RESET` (R130): every register takes its power-on value; no result and no notice. The configuration, the operations
waiting and the notices already emitted are not the bank's registers and stay. -/
def execReset (s : State) : Result := complete powerOnBank ⟨none, none⟩ s

/-- `SETVCOUNT v` (R131): `VCOUNT` takes `v & 0xFFFF` at once; no other register changes, no result and no notice. -/
def execSetvcount (v : Nat) (s : State) : Result :=
  complete (s.bank.set .vcount (maskHalf v)) ⟨none, none⟩ s

end Sys2Proof.Machine
end

