-- ==== Sys2Proof/Machine/Dispatch.lean ====
section
/-! DEFINITION. The dispatch: one arm per row of spec/opcode_table.json, each one call of that row's meaning. -/

namespace Sys2Proof.Machine

def exec (i : Instr) (s : State) : Host.Outcome State Fault Refusal :=
  match i with
  | .reset => Sys2Proof.Machine.execReset s
  | .rdb a => Sys2Proof.Machine.execRdb a s
  | .wrb a v => Sys2Proof.Machine.execWrb a v s
  | .setvcount v => Sys2Proof.Machine.execSetvcount v s
  | .getDispcnt => Sys2Proof.Machine.execGetDispcnt s
  | .getDispstat => Sys2Proof.Machine.execGetDispstat s
  | .getVcount => Sys2Proof.Machine.execGetVcount s
  | .getBg0cnt => Sys2Proof.Machine.execGetBg0cnt s
  | .getBg1cnt => Sys2Proof.Machine.execGetBg1cnt s
  | .getBg2cnt => Sys2Proof.Machine.execGetBg2cnt s
  | .getBg3cnt => Sys2Proof.Machine.execGetBg3cnt s
  | .getBg0hofs => Sys2Proof.Machine.execGetBg0hofs s
  | .getBg0vofs => Sys2Proof.Machine.execGetBg0vofs s
  | .getBg1hofs => Sys2Proof.Machine.execGetBg1hofs s
  | .getBg1vofs => Sys2Proof.Machine.execGetBg1vofs s
  | .getBg2hofs => Sys2Proof.Machine.execGetBg2hofs s
  | .getBg2vofs => Sys2Proof.Machine.execGetBg2vofs s
  | .getBg3hofs => Sys2Proof.Machine.execGetBg3hofs s
  | .getBg3vofs => Sys2Proof.Machine.execGetBg3vofs s
  | .getWin0h => Sys2Proof.Machine.execGetWin0h s
  | .getWin1h => Sys2Proof.Machine.execGetWin1h s
  | .getWin0v => Sys2Proof.Machine.execGetWin0v s
  | .getWin1v => Sys2Proof.Machine.execGetWin1v s
  | .getWinin => Sys2Proof.Machine.execGetWinin s
  | .getWinout => Sys2Proof.Machine.execGetWinout s
  | .getMosaic => Sys2Proof.Machine.execGetMosaic s
  | .getBldcnt => Sys2Proof.Machine.execGetBldcnt s
  | .getBldalpha => Sys2Proof.Machine.execGetBldalpha s
  | .getBldy => Sys2Proof.Machine.execGetBldy s
  | .dispcntLo acc => Sys2Proof.Machine.execDispcntLo acc s
  | .dispcntHi acc => Sys2Proof.Machine.execDispcntHi acc s
  | .dispstatLo acc => Sys2Proof.Machine.execDispstatLo acc s
  | .dispstatHi acc => Sys2Proof.Machine.execDispstatHi acc s
  | .vcountLo acc => Sys2Proof.Machine.execVcountLo acc s
  | .vcountHi acc => Sys2Proof.Machine.execVcountHi acc s
  | .bg0cntLo acc => Sys2Proof.Machine.execBg0cntLo acc s
  | .bg0cntHi acc => Sys2Proof.Machine.execBg0cntHi acc s
  | .bg1cntLo acc => Sys2Proof.Machine.execBg1cntLo acc s
  | .bg1cntHi acc => Sys2Proof.Machine.execBg1cntHi acc s
  | .bg2cntLo acc => Sys2Proof.Machine.execBg2cntLo acc s
  | .bg2cntHi acc => Sys2Proof.Machine.execBg2cntHi acc s
  | .bg3cntLo acc => Sys2Proof.Machine.execBg3cntLo acc s
  | .bg3cntHi acc => Sys2Proof.Machine.execBg3cntHi acc s
  | .bg0hofsLo acc => Sys2Proof.Machine.execBg0hofsLo acc s
  | .bg0hofsHi acc => Sys2Proof.Machine.execBg0hofsHi acc s
  | .bg0vofsLo acc => Sys2Proof.Machine.execBg0vofsLo acc s
  | .bg0vofsHi acc => Sys2Proof.Machine.execBg0vofsHi acc s
  | .bg1hofsLo acc => Sys2Proof.Machine.execBg1hofsLo acc s
  | .bg1hofsHi acc => Sys2Proof.Machine.execBg1hofsHi acc s
  | .bg1vofsLo acc => Sys2Proof.Machine.execBg1vofsLo acc s
  | .bg1vofsHi acc => Sys2Proof.Machine.execBg1vofsHi acc s
  | .bg2hofsLo acc => Sys2Proof.Machine.execBg2hofsLo acc s
  | .bg2hofsHi acc => Sys2Proof.Machine.execBg2hofsHi acc s
  | .bg2vofsLo acc => Sys2Proof.Machine.execBg2vofsLo acc s
  | .bg2vofsHi acc => Sys2Proof.Machine.execBg2vofsHi acc s
  | .bg3hofsLo acc => Sys2Proof.Machine.execBg3hofsLo acc s
  | .bg3hofsHi acc => Sys2Proof.Machine.execBg3hofsHi acc s
  | .bg3vofsLo acc => Sys2Proof.Machine.execBg3vofsLo acc s
  | .bg3vofsHi acc => Sys2Proof.Machine.execBg3vofsHi acc s
  | .win0hLo acc => Sys2Proof.Machine.execWin0hLo acc s
  | .win0hHi acc => Sys2Proof.Machine.execWin0hHi acc s
  | .win1hLo acc => Sys2Proof.Machine.execWin1hLo acc s
  | .win1hHi acc => Sys2Proof.Machine.execWin1hHi acc s
  | .win0vLo acc => Sys2Proof.Machine.execWin0vLo acc s
  | .win0vHi acc => Sys2Proof.Machine.execWin0vHi acc s
  | .win1vLo acc => Sys2Proof.Machine.execWin1vLo acc s
  | .win1vHi acc => Sys2Proof.Machine.execWin1vHi acc s
  | .wininLo acc => Sys2Proof.Machine.execWininLo acc s
  | .wininHi acc => Sys2Proof.Machine.execWininHi acc s
  | .winoutLo acc => Sys2Proof.Machine.execWinoutLo acc s
  | .winoutHi acc => Sys2Proof.Machine.execWinoutHi acc s
  | .mosaicLo acc => Sys2Proof.Machine.execMosaicLo acc s
  | .mosaicHi acc => Sys2Proof.Machine.execMosaicHi acc s
  | .bldcntLo acc => Sys2Proof.Machine.execBldcntLo acc s
  | .bldcntHi acc => Sys2Proof.Machine.execBldcntHi acc s
  | .bldalphaLo acc => Sys2Proof.Machine.execBldalphaLo acc s
  | .bldalphaHi acc => Sys2Proof.Machine.execBldalphaHi acc s
  | .bldyLo acc => Sys2Proof.Machine.execBldyLo acc s
  | .bldyHi acc => Sys2Proof.Machine.execBldyHi acc s

end Sys2Proof.Machine
end

