-- ==== Sys2Proof/Machine/Step.lean ====
section
/-! DEFINITION. One step (spec/00_scope.md R5): the bank is passive, so with no operation presented nothing changes; else
it takes the one presented first. A word that spells no operation is refused (R78 (c)). -/

namespace Sys2Proof.Machine

/-- One step of the machine. -/
def step (s : State) : Host.Outcome State Fault Refusal :=
  match fetch s with
  | .idle => .next s
  | .run i rest => exec i (s.withInbox rest)
  | .invalid e => .refused (.invalidWord e)

/-- The state with a word of spec/opcode_table.json presented as the next operation, before those already waiting. -/
def State.withFetchWord (s : State) (nbits w : Nat) : State :=
  s.withInbox (Presented.ofTable nbits w :: s.inbox)

end Sys2Proof.Machine
end

