-- ==== Sys2Proof/Machine/Sequence.lean ====
section
/-! DEFINITION. Sequences of operations, applied left to right (spec/00_scope.md R5, spec/20_memory.md R60), and the
pseudo-operations of spec/30_encoding.md R80, each a fixed sequence of byte operations. R80 gives `WRH` and `RDH` for an even address only,
`WRW` and `RDW` for a multiple of 4 only. That the same expansion stands here for every address, with no wrap at `2 ^ 32`,
and that a value above the width is cut to its low bits, is the model's choice (DESIGN CHOICE, log entry 13). -/

namespace Sys2Proof.Machine

/-- Apply the operations in their order, stopping where one does not complete. -/
def runOps : List Instr → State → Result
  | [], s => .next s
  | i :: is, s =>
    match exec i s with
    | .next t => runOps is t
    | .fault r => .fault r
    | .refused r => .refused r

/-- `WRH a, v16`: the low byte at `a`, then the high byte at `a + 1` (R80; for an odd `a`, log entry 13). -/
def wrh (a v : Nat) : List Instr := [.wrb a (v % 2 ^ 8), .wrb (a + 1) (v / 2 ^ 8 % 2 ^ 8)]

/-- `RDH a`: the byte at `a`, then the byte at `a + 1` (R80; for an odd `a`, log entry 13). -/
def rdh (a : Nat) : List Instr := [.rdb a, .rdb (a + 1)]

/-- `WRW a, v32`: the low half at `a`, then the high half at `a + 2` (R80; for an `a` that is no multiple of 4, log entry
13). -/
def wrw (a v : Nat) : List Instr := wrh a (v % 2 ^ 16) ++ wrh (a + 2) (v / 2 ^ 16 % 2 ^ 16)

/-- `RDW a`: the half at `a`, then the half at `a + 2` (R80; for an `a` that is no multiple of 4, log entry 13). -/
def rdw (a : Nat) : List Instr := rdh a ++ rdh (a + 2)

/-- The value `RDH` assembles from the output records of its two reads: `(hi << 8) | lo` (R80). -/
def rdhValue : List Output → Option Half
  | [⟨some (.byte lo), _⟩, ⟨some (.byte hi), _⟩] => some (assemble hi lo)
  | _ => none

/-- The value `RDW` assembles from the output records of its four reads: `(h << 16) | l` (R80). -/
def rdwValue : List Output → Option (BitVec 32)
  | [o0, o1, o2, o3] =>
    match rdhValue [o0, o1], rdhValue [o2, o3] with
    | some l, some h => some ((h.setWidth 32 <<< 16) ||| l.setWidth 32)
    | _, _ => none
  | _ => none

end Sys2Proof.Machine
end

