-- ==== Sys2Proof/Safety.lean ====
section
/-! DEFINITION. What the statements say about the machine: the invariant of a state, the bus access an operation
presents, the lane it writes, and which operations are reads. -/

namespace Sys2Proof.Machine

/-- A notice in an output record comes from an unmapped access under an enabled gate; the record of an unmapped read
holds the byte `0x00`, that of an unmapped write holds no value (R140 to R144). -/
def outputOk (c : Config) (o : Output) : Prop :=
  ∀ d, o.notice = some d →
    c.diagEnable = true ∧ decodeAddr c.offsets d.addr = .unmapped ∧
    o.value = (match d.kind with
      | .read => some (.byte 0x00)
      | .write => none)

/-- The invariant: the configuration meets R4 and R15, and every output record is one the rules allow. -/
def StateOk (s : State) : Prop :=
  configOk s.cfg ∧ ∀ o ∈ s.outputs, outputOk s.cfg o

/-- The bus access an operation presents, with its address; none for the operations that do not use the bus. -/
def busAccessOf (i : Instr) : Option (Nat × BusAccess) :=
  match i.kind with
  | .rdb a => some (a, .read)
  | .wrb a v => some (a, .write v)
  | .lane r l acc => some (laneRowAddr r l, acc)
  | .reset => none
  | .setvcount _ => none
  | .get _ => none

/-- The access kind a notice would name (R143). -/
def accessKind : BusAccess → AccessKind
  | .read => .read
  | .write _ => .write

/-- An operation that only reads: a byte read of the bus, or a getter (R45 (d)). -/
def isRead (i : Instr) : Bool :=
  match i.kind with
  | .rdb _ => true
  | .get _ => true
  | .lane _ _ .read => true
  | .lane _ _ (.write _) => false
  | .wrb _ _ => false
  | .reset => false
  | .setvcount _ => false

/-- The byte a bus access writes into one lane, if it writes there. -/
def accessWrites (t : OffsetTable) (r : Reg) (l : Lane) (a : Nat) : BusAccess → Option Byte
  | .read => none
  | .write v => if decodeAddr t a = .mapped r l then some (BitVec.ofNat 8 v) else none

/-- The byte an operation writes into one lane, if it writes there: the closed list of writers of R13. The bytes of
`SETVCOUNT` rest on decision D7 of the spec (log entry 10), the access of a `LANE` row on log entry 3. -/
def laneWritten (t : OffsetTable) (r : Reg) (l : Lane) (i : Instr) : Option Byte :=
  match i.kind with
  | .reset => some (if r = .dispcnt ∧ l = .lo then 0x80 else 0x00)
  | .rdb _ => none
  | .wrb a v => accessWrites t r l a (.write v)
  | .setvcount v =>
    if r = .vcount then
      some (match l with
        | .lo => BitVec.ofNat 8 v
        | .hi => BitVec.ofNat 8 (v / 2 ^ 8))
    else none
  | .get _ => none
  | .lane r' l' acc => accessWrites t r l (laneRowAddr r' l') acc

/-- The byte the last writer of one lane in a sequence leaves there, if the sequence writes the lane at all (R60). -/
def lastWritten (t : OffsetTable) (r : Reg) (l : Lane) : List Instr → Option Byte
  | [] => none
  | i :: is =>
    match lastWritten t r l is with
    | some v => some v
    | none => laneWritten t r l i

end Sys2Proof.Machine
end

