-- ==== Sys2Proof/Certificates/Slice0/Obligations.lean ====
section
/-! DEFINITION. The statements for the provers. Each formalises a rule of spec/ or rests on the sections its entry in
OBLIGATIONS.json cites. Where a clause rests on a decision of the spec (D<n>) or on an entry of the assumption log, its
docstring says so. -/

open Sys2Proof Sys2Proof.Machine

namespace Sys2Proof.Claims

/-- A register's power-on value (R14). -/
def powerOn (r : Reg) : Half := if r = .dispcnt then 0x0080 else 0x0000

/-- The record of an operation with the given read value and no notice. -/
def quiet (v : Option ReadValue) : Output := ⟨v, none⟩

/-- What the rules say of one getter: from every state it answers the next state in which nothing changed but one more
output record, which holds the whole register and no notice (R100); its value after `RESET`, from every state; and the
words it is spelled by, every data field alike (R77, decisions D3 and D5 of the spec). -/
def GetterLaw (i : Instr) (regid : Nat) (field : Bank → Half) (reset : Half) : Prop :=
  (∀ s, exec i s = .next { s with outputs := s.outputs ++ [⟨some (.half (field s.bank)), none⟩] }) ∧
  (∀ s, ∃ t u, exec .reset s = .next t ∧ exec i t = .next u ∧
    u.outputs = t.outputs ++ [⟨some (.half reset), none⟩]) ∧
  (∀ d, d < 2 ^ 16 → decodeWord (BitVec.ofNat 52 (0x3000000000000 + regid * 0x10000 + d)) = .operation i)

end Sys2Proof.Claims

open Sys2Proof.Claims

/-! ## Reset, construction, the invariant, the step -/

/-- R161: the state after reset, complete, at construction and after `RESET` from every state. -/
def Obligations.ResetLeavesPowerOnValues : Prop :=
  (∀ r, State.reset.bank.get r = if r = .dispcnt then 0x0080#16 else 0x0000#16) ∧
  (∀ s, ∃ t, exec .reset s = .next t ∧ ∀ r, t.bank.get r = if r = .dispcnt then 0x0080#16 else 0x0000#16)

/-- R130: `RESET` always completes; one bank, the same from every state, whose lanes are as R14 lists them; nothing else
of the state changes but one output record with no value and no notice. R160: construction gives the same bank. -/
def Obligations.ResetIgnoresThePriorState : Prop :=
  ∃ b : Bank,
    (∀ s, exec .reset s = .next { s with bank := b, outputs := s.outputs ++ [⟨none, none⟩] }) ∧
    (∀ r l, laneOf (b.get r) l = if r = .dispcnt ∧ l = .lo then 0x80#8 else 0x00#8) ∧
    (∀ c, (State.construct c).bank = b)

/-- R132, R15, R162: construction accepts exactly the configurations that meet R4 and R15 (the model's choice of the
checks, log entry 4), and what it builds meets the invariant, holds the power-on values and has done nothing yet. -/
def Obligations.ConstructionChecksTheConfiguration : Prop :=
  ∀ c,
    (configOk c → ∃ s, State.construct? c = some s ∧ s.cfg = c ∧ StateOk s ∧
      (∀ r, s.bank.get r = powerOn r) ∧ s.inbox = [] ∧ s.outputs = []) ∧
    (¬ configOk c → State.construct? c = none)

/-- R14, R15, R16: the reset state meets the invariant. -/
def Obligations.ResetMeetsTheInvariant : Prop := StateOk State.reset

/-- R15 (the mapping is static), R140 to R144: every step keeps the invariant, from every state that meets it. -/
def Obligations.StepKeepsTheInvariant : Prop :=
  ∀ s t, StateOk s → step s = .next t → StateOk t

/-- R5: with an operation presented, the step is `exec` of the decoded operation on the state without it; a table word
put first is run by the very next step; with nothing presented nothing changes (log entry 5). R78 (c), decision D15: a
word that spells no operation is refused by name. -/
def Obligations.StepRunsTheDecodedOperation : Prop :=
  (∀ s p rest i, s.inbox = p :: rest → p.decode = .operation i → step s = exec i { s with inbox := rest }) ∧
  (∀ s nbits w i, decodeTableWord nbits w = some i → step (s.withFetchWord nbits w) = exec i s) ∧
  (∀ s, s.inbox = [] → step s = .next s) ∧
  (∀ s p rest e, s.inbox = p :: rest → p.decode = .invalid e → step s = .refused (.invalidWord e))

/-- R5, R60, R143, R170: a step takes the operation presented first and no other, adds exactly one output record at the
end, and never changes the configuration. The waiting operations and the record list are the model's own state (log
entries 4, 5, 6). -/
def Obligations.StepTakesOneOperation : Prop :=
  ∀ s t, step s = .next t →
    t.cfg = s.cfg ∧ t.inbox = s.inbox.tail ∧
    (s.inbox = [] → t = s) ∧
    (s.inbox ≠ [] → ∃ o, t.outputs = s.outputs ++ [o])

/-- R147: every operation answers a next state, from every state, and so does a step that takes one; the operation that
meets an unmapped address completes normally, a read delivers `0x00`, and the state of the bank after it equals the
state before it. -/
def Obligations.EveryOperationCompletes : Prop :=
  (∀ i s, ∃ t, exec i s = .next t) ∧
  (∀ s p rest i, s.inbox = p :: rest → p.decode = .operation i → ∃ t, step s = .next t) ∧
  (∀ s a, decodeAddr s.cfg.offsets a = .unmapped →
    (∃ t n, exec (.rdb a) s = .next t ∧ t.bank = s.bank ∧ t.outputs = s.outputs ++ [⟨some (.byte 0x00), n⟩]) ∧
    (∀ v, ∃ t, exec (.wrb a v) s = .next t ∧ t.bank = s.bank))

/-! ## The address decoder -/

/-- R72: under every table that meets R15 the decoder finds exactly the two lanes of each register at its base offset, is
`Unmapped` everywhere else, and does not depend on the order in which the registers are tried; outside the region it is
`Unmapped` whatever the table. -/
def Obligations.DecodeFindsExactlyTheLanes : Prop :=
  (∀ t, tableOk t → ∀ a r,
    (decodeAddr t a = .mapped r .lo ↔ a = 0x04000000 + t.get r) ∧
    (decodeAddr t a = .mapped r .hi ↔ a = 0x04000000 + t.get r + 1)) ∧
  (∀ t, tableOk t → ∀ a,
    (decodeAddr t a = .unmapped ↔ ∀ r, a ≠ 0x04000000 + t.get r ∧ a ≠ 0x04000000 + t.get r + 1)) ∧
  (∀ t a, a < 0x04000000 ∨ 0x04000055 < a → decodeAddr t a = .unmapped) ∧
  (∀ t, tableOk t → ∀ off rs, rs.Perm Reg.all → findLane t off rs = findLane t off Reg.all)

/-- R71: the field view (tag, slot, lane bit) computes the same decoder on every 32-bit address, for every table that
meets R15. -/
def Obligations.DecodeByFieldsAgrees : Prop :=
  ∀ t, tableOk t → ∀ a : BitVec 32, decodeByFields t a = decodeAddr t a.toNat

/-- R73, R82, R16: the default table meets R15, and under it the decoder is a look-up in the 50 listed rows, for every
address. The offsets rest on decision D2 of the spec (log entry 1). -/
def Obligations.DefaultDecodeIsTheLaneTable : Prop :=
  tableOk defaultOffsets ∧ laneRows.length = 50 ∧
  ∀ a, decodeAddr defaultOffsets a =
    match findRow a laneRows with
    | some row => .mapped row.reg row.lane
    | none => .unmapped

/-- R52, R53: for every table an address maps to at most one lane and a lane to at most one address, so there is no
mirror; a bare offset and an address of `2 ^ 32` or more are unmapped (the last is decision D14 of the spec). -/
def Obligations.NoMirrorsAndNoBareOffsets : Prop :=
  (∀ t a b r l, decodeAddr t a = .mapped r l → decodeAddr t b = .mapped r l → a = b) ∧
  (∀ t a, a ≤ 0x55 → decodeAddr t a = .unmapped) ∧
  (∀ t a, 2 ^ 32 ≤ a → decodeAddr t a = .unmapped)

/-- R51: under every table that meets R15, 50 of the 86 addresses of the region are mapped and 36 are not. -/
def Obligations.FiftyOfEightySixAddressesAreMapped : Prop :=
  ∀ t, tableOk t →
    ((List.range 86).filter (fun off => decide (decodeAddr t (0x04000000 + off) ≠ .unmapped))).length = 50 ∧
    ((List.range 86).filter (fun off => decide (decodeAddr t (0x04000000 + off) = .unmapped))).length = 36

/-! ## RDB and WRB -/

/-- R90, R75, R141: `RDB` always completes; its result is bits 7:0 or 15:8 of the register, or `0x00` with a notice where
the address is unmapped; nothing else of the state changes. The form of the notice is decision D8, its gate D9. -/
def Obligations.ReadByteCompletes : Prop :=
  ∀ s a,
    (∀ r, decodeAddr s.cfg.offsets a = .mapped r .lo →
      exec (.rdb a) s = .next
        { s with outputs := s.outputs ++ [⟨some (.byte ((s.bank.get r).extractLsb' 0 8)), none⟩] }) ∧
    (∀ r, decodeAddr s.cfg.offsets a = .mapped r .hi →
      exec (.rdb a) s = .next
        { s with outputs := s.outputs ++ [⟨some (.byte ((s.bank.get r).extractLsb' 8 8)), none⟩] }) ∧
    (decodeAddr s.cfg.offsets a = .unmapped →
      exec (.rdb a) s = .next
        { s with outputs := s.outputs ++
            [⟨some (.byte 0x00), if s.cfg.diagEnable then some ⟨.read, a⟩ else none⟩] })

/-- R91, R74, R142: `WRB` always completes; it replaces one lane with the low 8 bits of the value and keeps the other
lane, every other register and the rest of the state; at an unmapped address it changes nothing and emits a notice. The
form of the notice is decision D8, its gate D9; the width of the value is decision D6. -/
def Obligations.WriteByteCompletes : Prop :=
  ∀ s a v,
    (∀ r, decodeAddr s.cfg.offsets a = .mapped r .lo →
      ∃ b : Bank, exec (.wrb a v) s = .next { s with bank := b, outputs := s.outputs ++ [⟨none, none⟩] } ∧
        b.get r = (s.bank.get r).extractLsb' 8 8 ++ BitVec.ofNat 8 v ∧ ∀ q, q ≠ r → b.get q = s.bank.get q) ∧
    (∀ r, decodeAddr s.cfg.offsets a = .mapped r .hi →
      ∃ b : Bank, exec (.wrb a v) s = .next { s with bank := b, outputs := s.outputs ++ [⟨none, none⟩] } ∧
        b.get r = BitVec.ofNat 8 v ++ (s.bank.get r).extractLsb' 0 8 ∧ ∀ q, q ≠ r → b.get q = s.bank.get q) ∧
    (decodeAddr s.cfg.offsets a = .unmapped →
      exec (.wrb a v) s = .next
        { s with outputs := s.outputs ++ [⟨none, if s.cfg.diagEnable then some ⟨.write, a⟩ else none⟩] })

/-- R93: the low-lane write and read, for every state, register and value. -/
def Obligations.LowLaneWriteThenRead : Prop :=
  ∀ s r v, tableOk s.cfg.offsets →
    ∃ t u w x,
      exec (.wrb (0x04000000 + s.cfg.offsets.get r) v) s = .next t ∧
      exec (.rdb (0x04000000 + s.cfg.offsets.get r)) t = .next u ∧
      u.outputs = t.outputs ++ [quiet (some (.byte (BitVec.ofNat 8 v)))] ∧
      exec r.getOp t = .next w ∧
      w.outputs = t.outputs ++ [quiet (some (.half x))] ∧
      x.extractLsb' 8 8 = (s.bank.get r).extractLsb' 8 8

/-- R94: the high-lane write and read, and the round trip in either order, whatever the register held before. -/
def Obligations.HighLaneWriteAndRoundTrip : Prop :=
  ∀ s r, tableOk s.cfg.offsets →
    (∀ v, ∃ t u w x,
      exec (.wrb (0x04000000 + s.cfg.offsets.get r + 1) v) s = .next t ∧
      exec (.rdb (0x04000000 + s.cfg.offsets.get r + 1)) t = .next u ∧
      u.outputs = t.outputs ++ [quiet (some (.byte (BitVec.ofNat 8 v)))] ∧
      exec r.getOp t = .next w ∧
      w.outputs = t.outputs ++ [quiet (some (.half x))] ∧
      x.extractLsb' 0 8 = (s.bank.get r).extractLsb' 0 8) ∧
    (∀ lo hi : Byte,
      (∃ t, runOps [.wrb (0x04000000 + s.cfg.offsets.get r) lo.toNat,
          .wrb (0x04000000 + s.cfg.offsets.get r + 1) hi.toNat] s = .next t ∧ t.bank.get r = hi ++ lo) ∧
      (∃ t, runOps [.wrb (0x04000000 + s.cfg.offsets.get r + 1) hi.toNat,
          .wrb (0x04000000 + s.cfg.offsets.get r) lo.toNat] s = .next t ∧ t.bank.get r = hi ++ lo))

/-- R95: a byte write leaves every register the address does not decode to as it was. -/
def Obligations.WriteLeavesOtherRegisters : Prop :=
  ∀ s a v r, (∀ l, decodeAddr s.cfg.offsets a ≠ .mapped r l) →
    ∃ t, exec (.wrb a v) s = .next t ∧ t.bank.get r = s.bank.get r

/-- R96: at an unmapped address a read returns `0x00`, and neither a read nor a write of any value changes a register. -/
def Obligations.UnmappedAccessChangesNothing : Prop :=
  ∀ s a, decodeAddr s.cfg.offsets a = .unmapped →
    (∃ t n, exec (.rdb a) s = .next t ∧ t.outputs = s.outputs ++ [⟨some (.byte 0x00), n⟩] ∧ t.bank = s.bank) ∧
    (∀ v, ∃ t, exec (.wrb a v) s = .next t ∧ t.bank = s.bank)

/-- R12, in part: every register is 16 bits of plain storage. Each bit of each register (`VCOUNT` and `DISPSTAT` too) reads
back as written through the two lanes; and no operation's notice, nor whether it completes, depends on any stored bit.
Which values and lanes depend on which stored bits is not said here but by `EveryLaneAfterEveryOperation`,
`ReadByteCompletes` and the getters' statements. -/
def Obligations.EveryBitIsPlainStorage : Prop :=
  (∀ s r (x : Half), tableOk s.cfg.offsets →
    ∃ t u, runOps [.wrb (0x04000000 + s.cfg.offsets.get r) (x.extractLsb' 0 8).toNat,
        .wrb (0x04000000 + s.cfg.offsets.get r + 1) (x.extractLsb' 8 8).toNat] s = .next t ∧
      exec r.getOp t = .next u ∧ u.outputs = t.outputs ++ [quiet (some (.half x))]) ∧
  (∀ i s b, ∃ t u o p, exec i s = .next t ∧ exec i { s with bank := b } = .next u ∧
    t.outputs = s.outputs ++ [o] ∧ u.outputs = s.outputs ++ [p] ∧ o.notice = p.notice)

/-- R58: the same write twice in succession leaves the bank as once; a read repeated gives the same value again; `RESET`
twice is `RESET` once. -/
def Obligations.RepeatedAccessIsIdempotent : Prop :=
  (∀ s a v, ∃ t u, exec (.wrb a v) s = .next t ∧ exec (.wrb a v) t = .next u ∧ u.bank = t.bank) ∧
  (∀ s a, ∃ t o, exec (.rdb a) s = .next t ∧ t.outputs = s.outputs ++ [o] ∧
    exec (.rdb a) t = .next { t with outputs := t.outputs ++ [o] }) ∧
  (∀ s, ∃ t u, exec .reset s = .next t ∧ exec .reset t = .next u ∧ u.bank = t.bank)

/-- R164: the intermediate values of a 16-bit update made of two byte writes, in both orders, as a getter placed between
them returns them. -/
def Obligations.TornValueBetweenTwoWrites : Prop :=
  ∀ s r (h1 l1 : Byte), tableOk s.cfg.offsets →
    (∃ t u w x, exec (.wrb (0x04000000 + s.cfg.offsets.get r) l1.toNat) s = .next t ∧
      exec r.getOp t = .next u ∧
      u.outputs = t.outputs ++ [quiet (some (.half ((s.bank.get r).extractLsb' 8 8 ++ l1)))] ∧
      exec (.wrb (0x04000000 + s.cfg.offsets.get r + 1) h1.toNat) u = .next w ∧
      exec r.getOp w = .next x ∧ x.outputs = w.outputs ++ [quiet (some (.half (h1 ++ l1)))]) ∧
    (∃ t u w x, exec (.wrb (0x04000000 + s.cfg.offsets.get r + 1) h1.toNat) s = .next t ∧
      exec r.getOp t = .next u ∧
      u.outputs = t.outputs ++ [quiet (some (.half (h1 ++ (s.bank.get r).extractLsb' 0 8)))] ∧
      exec (.wrb (0x04000000 + s.cfg.offsets.get r) l1.toNat) u = .next w ∧
      exec r.getOp w = .next x ∧ x.outputs = w.outputs ++ [quiet (some (.half (h1 ++ l1)))])

/-! ## The LANE rows -/

/-- R73, R82, R90, R91: each of the 50 `LANE` rows (`dispcntLo` … `bldyHi`) is, under every configuration, the byte access
of `RDB` or `WRB` at the row's address, which is base plus offset of the default table. That a row's constructor carries
the access is log entry 3. -/
def Obligations.LaneRowsAreBusAccesses : Prop :=
  ∀ s r l,
    exec (laneOp r l .read) s = exec (.rdb (0x04000000 + defaultOffsets.get r + l.offset)) s ∧
    ∀ v, exec (laneOp r l (.write v)) s = exec (.wrb (0x04000000 + defaultOffsets.get r + l.offset) v) s

/-- R17 to R41, R90: under the default table (decision D2, log entry 1) a read of each of the 50 `LANE` rows (`dispcntLo` …
`bldyHi`) completes with the byte of the register the row names, no notice and nothing else changed. -/
def Obligations.LaneRowReadsCompleteOnTheirRegister : Prop :=
  ∀ s r, s.cfg.offsets = defaultOffsets →
    exec (laneOp r .lo .read) s = .next
      { s with outputs := s.outputs ++ [⟨some (.byte ((s.bank.get r).extractLsb' 0 8)), none⟩] } ∧
    exec (laneOp r .hi .read) s = .next
      { s with outputs := s.outputs ++ [⟨some (.byte ((s.bank.get r).extractLsb' 8 8)), none⟩] }

/-- R17 to R41, R91: under the default table (decision D2, log entry 1) a write to each of the 50 `LANE` rows (`dispcntLo` …
`bldyHi`) completes with that lane of the register the row names replaced, its other lane and every other register
kept, and no notice. -/
def Obligations.LaneRowWritesCompleteOnTheirRegister : Prop :=
  ∀ s r v, s.cfg.offsets = defaultOffsets →
    (∃ b : Bank, exec (laneOp r .lo (.write v)) s = .next
        { s with bank := b, outputs := s.outputs ++ [⟨none, none⟩] } ∧
      b.get r = (s.bank.get r).extractLsb' 8 8 ++ BitVec.ofNat 8 v ∧ ∀ q, q ≠ r → b.get q = s.bank.get q) ∧
    (∃ b : Bank, exec (laneOp r .hi (.write v)) s = .next
        { s with bank := b, outputs := s.outputs ++ [⟨none, none⟩] } ∧
      b.get r = BitVec.ofNat 8 v ++ (s.bank.get r).extractLsb' 0 8 ∧ ∀ q, q ≠ r → b.get q = s.bank.get q)

/-! ## The getters -/

/-- R101 to R107: the getters of `DISPCNT` to `BG3CNT`. -/
def Obligations.GettersOfControlRegisters : Prop :=
  GetterLaw .getDispcnt 0 (fun b => b.dispcnt) 0x0080 ∧
  GetterLaw .getDispstat 1 (fun b => b.dispstat) 0x0000 ∧
  GetterLaw .getVcount 2 (fun b => b.vcount) 0x0000 ∧
  GetterLaw .getBg0cnt 3 (fun b => b.bg0cnt) 0x0000 ∧
  GetterLaw .getBg1cnt 4 (fun b => b.bg1cnt) 0x0000 ∧
  GetterLaw .getBg2cnt 5 (fun b => b.bg2cnt) 0x0000 ∧
  GetterLaw .getBg3cnt 6 (fun b => b.bg3cnt) 0x0000

/-- R108 to R115: the getters of the scroll offsets. -/
def Obligations.GettersOfScrollRegisters : Prop :=
  GetterLaw .getBg0hofs 7 (fun b => b.bg0hofs) 0x0000 ∧
  GetterLaw .getBg0vofs 8 (fun b => b.bg0vofs) 0x0000 ∧
  GetterLaw .getBg1hofs 9 (fun b => b.bg1hofs) 0x0000 ∧
  GetterLaw .getBg1vofs 10 (fun b => b.bg1vofs) 0x0000 ∧
  GetterLaw .getBg2hofs 11 (fun b => b.bg2hofs) 0x0000 ∧
  GetterLaw .getBg2vofs 12 (fun b => b.bg2vofs) 0x0000 ∧
  GetterLaw .getBg3hofs 13 (fun b => b.bg3hofs) 0x0000 ∧
  GetterLaw .getBg3vofs 14 (fun b => b.bg3vofs) 0x0000

/-- R116 to R121: the getters of the window registers. -/
def Obligations.GettersOfWindowRegisters : Prop :=
  GetterLaw .getWin0h 15 (fun b => b.win0h) 0x0000 ∧
  GetterLaw .getWin1h 16 (fun b => b.win1h) 0x0000 ∧
  GetterLaw .getWin0v 17 (fun b => b.win0v) 0x0000 ∧
  GetterLaw .getWin1v 18 (fun b => b.win1v) 0x0000 ∧
  GetterLaw .getWinin 19 (fun b => b.winin) 0x0000 ∧
  GetterLaw .getWinout 20 (fun b => b.winout) 0x0000

/-- R122 to R125: the getters of `MOSAIC` and the blend registers. -/
def Obligations.GettersOfMosaicAndBlendRegisters : Prop :=
  GetterLaw .getMosaic 21 (fun b => b.mosaic) 0x0000 ∧
  GetterLaw .getBldcnt 22 (fun b => b.bldcnt) 0x0000 ∧
  GetterLaw .getBldalpha 23 (fun b => b.bldalpha) 0x0000 ∧
  GetterLaw .getBldy 24 (fun b => b.bldy) 0x0000

/-- R100: every getter returns the full current 16-bit value with no side effect and no notice, whatever the offset table;
and under every table that meets R15 that value is `(high byte << 8) | low byte` as two `RDB`s return them. -/
def Obligations.GetterEqualsItsTwoBytes : Prop :=
  (∀ s r, exec r.getOp s = .next { s with outputs := s.outputs ++ [⟨some (.half (s.bank.get r)), none⟩] }) ∧
  (∀ s r, tableOk s.cfg.offsets → ∃ hi lo t u,
    exec (.rdb (0x04000000 + s.cfg.offsets.get r + 1)) s = .next t ∧
    t.outputs = s.outputs ++ [quiet (some (.byte hi))] ∧
    exec (.rdb (0x04000000 + s.cfg.offsets.get r)) s = .next u ∧
    u.outputs = s.outputs ++ [quiet (some (.byte lo))] ∧
    s.bank.get r = (hi.setWidth 16 <<< 8) ||| lo.setWidth 16)

/-! ## SETVCOUNT -/

/-- R131, R76: `SETVCOUNT` completes from every state, with any value, and stores its low 16 bits; no other register, no
result, no notice. Its form is decision D7 of the spec. -/
def Obligations.SetVcountStoresSixteenBits : Prop :=
  ∀ s v, exec (.setvcount v) s = .next
    { s with bank := { s.bank with vcount := BitVec.ofNat 16 v }, outputs := s.outputs ++ [⟨none, none⟩] }

/-- R131: the bank after `SETVCOUNT` is the bank after the two byte writes of `VCOUNT`, in either order. -/
def Obligations.SetVcountEqualsTwoByteWrites : Prop :=
  ∀ s v, tableOk s.cfg.offsets → ∃ t u w,
    exec (.setvcount v) s = .next t ∧
    runOps [.wrb (0x04000000 + s.cfg.offsets.vcount) (v % 2 ^ 8),
      .wrb (0x04000000 + s.cfg.offsets.vcount + 1) (v / 2 ^ 8 % 2 ^ 8)] s = .next u ∧
    runOps [.wrb (0x04000000 + s.cfg.offsets.vcount + 1) (v / 2 ^ 8 % 2 ^ 8),
      .wrb (0x04000000 + s.cfg.offsets.vcount) (v % 2 ^ 8)] s = .next w ∧
    u.bank = t.bank ∧ w.bank = t.bank

/-! ## Rules about all operations -/

/-- R45: (a) every register holds a value of 0 to 0xFFFF; (b) an operation changes a register only if it is `RESET`, or
`SETVCOUNT` and the register is `VCOUNT`, or a byte write whose address decodes to that register, and then the write
changes one lane only; (c) no operation changes what an address decodes to; (d) a read changes no register. -/
def Obligations.OnlyListedWritersChangeRegisters : Prop :=
  ∀ i s t, exec i s = .next t →
    (∀ r, (t.bank.get r).toNat ≤ 0xFFFF) ∧
    (∀ r, t.bank.get r ≠ s.bank.get r →
      i = .reset ∨ (r = .vcount ∧ ∃ v, i = .setvcount v) ∨
      ∃ a v l, busAccessOf i = some (a, .write v) ∧ decodeAddr s.cfg.offsets a = .mapped r l ∧
        ∀ k, k ≠ l → laneOf (t.bank.get r) k = laneOf (s.bank.get r) k) ∧
    (∀ a, decodeAddr t.cfg.offsets a = decodeAddr s.cfg.offsets a) ∧
    (isRead i = true → t.bank = s.bank)

/-- R13, R91, R130: what every operation does to every lane, and the frame of every operation: each byte of the bus it does
not write reads as before, and the configuration and the waiting operations stay. The written byte is `laneWritten`. For
`WRB` and `RESET` it is the one their rules give. That `SETVCOUNT` writes `v[7:0]` and `v[15:8]` is decision D7 of the
spec (log entry 10), and that a `LANE` row is a byte access at its address is the model's choice (log entry 3). -/
def Obligations.EveryLaneAfterEveryOperation : Prop :=
  ∀ i s, ∃ t, exec i s = .next t ∧ t.cfg = s.cfg ∧ t.inbox = s.inbox ∧
    (∀ r l, laneOf (t.bank.get r) l = (laneWritten s.cfg.offsets r l i).getD (laneOf (s.bank.get r) l)) ∧
    (∀ a, (∀ r l, decodeAddr s.cfg.offsets a = .mapped r l → laneWritten s.cfg.offsets r l i = none) →
      t.busByte a = s.busByte a)

/-- R155, R140, R143, R144, R146: every operation adds one output record, whose notice is there exactly when the operation
is a bus access at an unmapped address and the gate is set, and then names the kind and the whole address. The form of
the notice is decision D8, its gate D9. -/
def Obligations.NoticeExactlyOnUnmappedAccess : Prop :=
  ∀ i s, ∃ t o, exec i s = .next t ∧ t.outputs = s.outputs ++ [o] ∧
    (∀ n, o.notice = some n ↔
      ∃ a acc, busAccessOf i = some (a, acc) ∧ decodeAddr s.cfg.offsets a = .unmapped ∧
        s.cfg.diagEnable = true ∧ n = ⟨accessKind acc, a⟩)

/-- R43: no operation reads the records emitted so far, and no register value depends on them. -/
def Obligations.EarlierOutputsAreNeverRead : Prop :=
  ∀ i s os, ∃ t u o,
    exec i s = .next t ∧ exec i { s with outputs := os } = .next u ∧
    u.bank = t.bank ∧ u.cfg = t.cfg ∧ u.inbox = t.inbox ∧
    t.outputs = s.outputs ++ [o] ∧ u.outputs = os ++ [o]

/-- R149, in part: no counter of the bank advances by itself. An operation other than `RESET`, `SETVCOUNT` and a byte write
that decodes to `VCOUNT` leaves `VCOUNT`, and so does a step with nothing presented. That such an idle step exists is the
model's choice (DESIGN CHOICE, log entry 5). -/
def Obligations.VcountNeverAdvancesByItself : Prop :=
  (∀ i s t, exec i s = .next t → i ≠ .reset → (∀ v, i ≠ .setvcount v) →
    (∀ a v l, busAccessOf i = some (a, .write v) → decodeAddr s.cfg.offsets a ≠ .mapped .vcount l) →
    t.bank.vcount = s.bank.vcount) ∧
  (∀ s t, s.inbox = [] → step s = .next t → t.bank.vcount = s.bank.vcount)

/-! ## Sequences of operations -/

/-- R60: after any sequence from any state, a read of a lane returns the byte of the last writer of that lane in the
sequence, or what the lane held before if there was none; and two byte writes to different lanes end in the same bank in
either order. The byte of the last writer is `laneWritten`: that `SETVCOUNT` leaves `v[7:0]` and `v[15:8]` is decision D7 of
the spec (log entry 10), and that a `LANE` row is a byte access at its address is the model's choice (log entry 3). -/
def Obligations.ReadReturnsTheMostRecentWrite : Prop :=
  (∀ is s r l, tableOk s.cfg.offsets → ∃ t u,
    runOps is s = .next t ∧ exec (.rdb (laneAddr s.cfg.offsets r l)) t = .next u ∧
    u.outputs = t.outputs ++
      [quiet (some (.byte ((lastWritten s.cfg.offsets r l is).getD (laneOf (s.bank.get r) l))))]) ∧
  (∀ s a b v w, decodeAddr s.cfg.offsets a ≠ decodeAddr s.cfg.offsets b → ∃ t u,
    runOps [.wrb a v, .wrb b w] s = .next t ∧ runOps [.wrb b w, .wrb a v] s = .next u ∧ t.bank = u.bank)

/-- R97: reads inserted anywhere in a sequence change neither the final bank nor the record of any other operation; only
their own records are added, at their place. -/
def Obligations.InsertedReadsChangeNothingElse : Prop :=
  ∀ before reads after s, (∀ i ∈ reads, isRead i = true) → ∃ t u o1 o2 o3,
    runOps (before ++ after) s = .next t ∧ runOps (before ++ reads ++ after) s = .next u ∧
    u.bank = t.bank ∧ o1.length = before.length ∧ o2.length = reads.length ∧
    t.outputs = s.outputs ++ o1 ++ o3 ∧ u.outputs = s.outputs ++ o1 ++ o2 ++ o3

/-- R144: over any sequence, the notice gate changes no register and no read value; with the gate off no notice is ever
emitted. The gate as a configuration field is decision D9 of the spec. -/
def Obligations.NoticeGateChangesOnlyNotices : Prop :=
  ∀ (is : List Instr) (s : State), ∃ t u os ps,
    runOps is { s with cfg := { s.cfg with diagEnable := true } } = .next t ∧
    runOps is { s with cfg := { s.cfg with diagEnable := false } } = .next u ∧
    t.bank = u.bank ∧ t.outputs = s.outputs ++ os ∧ u.outputs = s.outputs ++ ps ∧
    os.map (fun o => o.value) = ps.map (fun o => o.value) ∧ ∀ o ∈ ps, o.notice = none

/-- R80, R54: `WRH` at a mapped base leaves the register at the 16-bit value, and `RDH` there assembles exactly what the
getter returns. The pseudo-operations are decision D12 of the spec. -/
def Obligations.HalfwordPseudoOperations : Prop :=
  ∀ s r, tableOk s.cfg.offsets →
    (∀ x : Half, ∃ t, runOps (wrh (0x04000000 + s.cfg.offsets.get r) x.toNat) s = .next t ∧
      t.bank = s.bank.set r x) ∧
    (∃ t os, runOps (rdh (0x04000000 + s.cfg.offsets.get r)) s = .next t ∧
      t.outputs = s.outputs ++ os ∧ rdhValue os = some (s.bank.get r))

/-- R80: `RDW` reads four bytes, each decoded on its own, least significant first; `WRW` is the four byte writes in the
same order. The pseudo-operations are decision D12 of the spec. R80 gives them for a multiple of 4 only; that every other
address has the same expansion, with no wrap at `2 ^ 32`, is the model's choice (log entry 13). -/
def Obligations.WordPseudoOperations : Prop :=
  (∀ s a, ∃ t os, runOps (rdw a) s = .next t ∧ t.bank = s.bank ∧ t.outputs = s.outputs ++ os ∧
    rdwValue os = some (s.busByte (a + 3) ++ s.busByte (a + 2) ++ s.busByte (a + 1) ++ s.busByte a)) ∧
  (∀ s a (x : BitVec 32), runOps (wrw a x.toNat) s =
    runOps [.wrb a (x.extractLsb' 0 8).toNat, .wrb (a + 1) (x.extractLsb' 8 8).toNat,
      .wrb (a + 2) (x.extractLsb' 16 8).toNat, .wrb (a + 3) (x.extractLsb' 24 8).toNat] s)

/-! ## Words -/

/-- R77, R82: decoding what the encoder writes gives the operation back, for every operation of the table with every
operand its word admits. The transaction word is decision D5 of the spec; the bus cycle of a `LANE` row is log
entry 3. -/
def Obligations.DecodeOfEncodeIsTheOperation : Prop :=
  ∀ i : Instr, i.wellFormed defaultConfig = true → (encode i).decode = .operation i

/-- R77, R78 (c): what every one of the `2 ^ 52` transaction words decodes to, ignored fields included, and which words
are refused, by which name. The transaction word is decision D5 of the spec, its refusals D15. -/
def Obligations.EveryTransactionWordDecodes : Prop :=
  ∀ w : BitVec 52,
    (w.toNat / 2 ^ 48 = 0 → decodeWord w = .operation .reset) ∧
    (w.toNat / 2 ^ 48 = 1 → decodeWord w = .operation (.rdb (w.toNat / 2 ^ 16 % 2 ^ 32))) ∧
    (w.toNat / 2 ^ 48 = 2 → decodeWord w = .operation (.wrb (w.toNat / 2 ^ 16 % 2 ^ 32) (w.toNat % 2 ^ 16))) ∧
    (w.toNat / 2 ^ 48 = 3 → ∀ r : Reg, w.toNat / 2 ^ 16 % 2 ^ 32 = r.id → decodeWord w = .operation r.getOp) ∧
    (w.toNat / 2 ^ 48 = 3 → 24 < w.toNat / 2 ^ 16 % 2 ^ 32 →
      decodeWord w = .invalid (.noSuchRegister (w.toNat / 2 ^ 16 % 2 ^ 32))) ∧
    (w.toNat / 2 ^ 48 = 4 → decodeWord w = .operation (.setvcount (w.toNat % 2 ^ 16))) ∧
    (4 < w.toNat / 2 ^ 48 → decodeWord w = .invalid (.reservedOp (w.toNat / 2 ^ 48)))

/-- R82: what every bus cycle decodes to: the row whose address it names, or a plain access at an address no row names;
the access is a write of bits 47:32 exactly when bit 48 is set (log entry 3). -/
def Obligations.EveryBusCycleDecodes : Prop :=
  ∀ w : BitVec 49,
    (∀ (r : Reg) (l : Lane), w.toNat % 2 ^ 32 = 0x04000000 + defaultOffsets.get r + l.offset →
      decodeCycle w = laneOp r l (if w.toNat / 2 ^ 48 = 1 then .write (w.toNat / 2 ^ 32 % 2 ^ 16) else .read)) ∧
    ((∀ (r : Reg) (l : Lane), w.toNat % 2 ^ 32 ≠ 0x04000000 + defaultOffsets.get r + l.offset) →
      decodeCycle w = if w.toNat / 2 ^ 48 = 1 then .wrb (w.toNat % 2 ^ 32) (w.toNat / 2 ^ 32 % 2 ^ 16)
        else .rdb (w.toNat % 2 ^ 32))

/-- Every operation a decoder gives has operands that fit the default widths. For transaction words this is R77 (decision D5
of the spec). The half about bus cycles, their 32-bit address and 16-bit value fields, is the model's choice (DESIGN
CHOICE, log entry 3). -/
def Obligations.DecodedOperationsAreWellFormed : Prop :=
  ∀ p i, Presented.decode p = .operation i → i.wellFormed defaultConfig = true

/-- R77, R78 (c) (decisions D5, D15 of the spec): a few words written out from the field layout, one per family and two that
spell nothing. The clause about `decodeTableWord`, that the 32 bits of a `LANE` row with zeros above them are a read, is
the model's choice (DESIGN CHOICE, log entry 3). -/
def Obligations.WordsOfTheEncodingTable : Prop :=
  decodeWord 0x0000000000000 = .operation .reset ∧
  decodeWord 0x1040000090000 = .operation (.rdb 0x04000009) ∧
  decodeWord 0x2040000080001 = .operation (.wrb 0x04000008 0x0001) ∧
  decodeWord 0x3000000030000 = .operation .getBg0cnt ∧
  decodeWord 0x40000000000A0 = .operation (.setvcount 0x00A0) ∧
  decodeTableWord 32 0x04000009 = some (.bg0cntHi .read) ∧
  decodeWord 0x3000000190000 = .invalid (.noSuchRegister 25) ∧
  decodeWord 0x5000000000000 = .invalid (.reservedOp 5)
end

