-- ==== Sys2Proof/Laws/AddressMap.lean ====
section
/-! SUPPORT. The address decoder in one lemma per case: outside the region, inside it, and what a found lane says. -/

namespace Sys2Proof.Machine

/-- Outside the region every address is unmapped (R51). -/
theorem decodeAddr_outside (t : OffsetTable) {a : Nat} (h : a < ioBase ∨ regionEnd < a) :
    decodeAddr t a = .unmapped := by
  unfold decodeAddr
  exact if_pos h

/-- Inside the region the decoder is the search of the lanes at the offset (R72). -/
theorem decodeAddr_inside (t : OffsetTable) {off : Nat} (h : off ≤ 0x55) :
    decodeAddr t (ioBase + off) = findLane t off Reg.all := by
  unfold decodeAddr
  have hn : ¬ (ioBase + off < ioBase ∨ regionEnd < ioBase + off) := by
    show ¬ (0x04000000 + off < 0x04000000 ∨ 0x04000055 < 0x04000000 + off)
    omega
  have hs : ioBase + off - ioBase = off := Nat.add_sub_cancel_left ..
  rw [if_neg hn, hs]

/-- A lane the search finds sits at the offset, whatever the table. -/
theorem findLane_found {t : OffsetTable} {off : Nat} {rs : List Reg} {r : Reg} {l : Lane}
    (h : findLane t off rs = .mapped r l) : off = t.get r + l.offset ∧ r ∈ rs := by
  induction rs with
  | nil => cases h
  | cons q qs ih =>
    unfold findLane at h
    split at h
    · next e => cases h; exact ⟨e, List.mem_cons_self⟩
    · split at h
      · next e => cases h; exact ⟨e, List.mem_cons_self⟩
      · exact ⟨(ih h).1, List.mem_cons_of_mem _ (ih h).2⟩

end Sys2Proof.Machine
end

