-- ==== Sys2Proof/Laws/Operands.lean ====
section
/-! SUPPORT. The lane arithmetic as bit slices: what a lane reads as, and what replacing one lane leaves of both. -/

namespace Sys2Proof.Machine

/-- The low lane is bits 7:0 (R75). -/
theorem laneOf_lo (x : Half) : laneOf x .lo = x.extractLsb' 0 8 := by
  refine BitVec.eq_of_getLsbD_eq fun i hi => ?_
  interval_cases i <;> simp [laneOf]

/-- The high lane is bits 15:8 (R75). -/
theorem laneOf_hi (x : Half) : laneOf x .hi = x.extractLsb' 8 8 := by
  refine BitVec.eq_of_getLsbD_eq fun i hi => ?_
  interval_cases i <;> simp [laneOf]

/-- Replacing the low lane keeps the high slice (R91). -/
theorem setLane_lo (x : Half) (v : Byte) : setLane x .lo v = x.extractLsb' 8 8 ++ v := by
  refine BitVec.eq_of_getLsbD_eq fun i hi => ?_
  rw [BitVec.getLsbD_append]
  interval_cases i <;> simp [setLane]

/-- Replacing the high lane keeps the low slice (R91). -/
theorem setLane_hi (x : Half) (v : Byte) : setLane x .hi v = v ++ x.extractLsb' 0 8 := by
  refine BitVec.eq_of_getLsbD_eq fun i hi => ?_
  rw [BitVec.getLsbD_append]
  interval_cases i <;> simp [setLane]

/-- Assembling two bytes puts the high one above the low one (R54). -/
theorem assemble_eq_append (hi lo : Byte) : assemble hi lo = hi ++ lo := by
  refine BitVec.eq_of_getLsbD_eq fun i hi => ?_
  rw [BitVec.getLsbD_append]
  interval_cases i <;> simp [assemble]

/-- The low slice of two bytes put together. -/
theorem slice_lo_append (a b : Byte) : (a ++ b : Half).extractLsb' 0 8 = b := by
  refine BitVec.eq_of_getLsbD_eq fun i hi => ?_
  rw [BitVec.getLsbD_extractLsb', BitVec.getLsbD_append]
  interval_cases i <;> simp

/-- The high slice of two bytes put together. -/
theorem slice_hi_append (a b : Byte) : (a ++ b : Half).extractLsb' 8 8 = a := by
  refine BitVec.eq_of_getLsbD_eq fun i hi => ?_
  rw [BitVec.getLsbD_extractLsb', BitVec.getLsbD_append]
  interval_cases i <;> simp

/-- A half is its two slices put together. -/
theorem slices_append (x : Half) : x.extractLsb' 8 8 ++ x.extractLsb' 0 8 = x := by
  refine BitVec.eq_of_getLsbD_eq fun i hi => ?_
  rw [BitVec.getLsbD_append]
  interval_cases i <;> simp

/-- The lane just replaced reads as the byte put there. -/
@[simp] theorem laneOf_setLane_same (x : Half) (l : Lane) (v : Byte) : laneOf (setLane x l v) l = v := by
  cases l
  · rw [laneOf_lo, setLane_lo, slice_lo_append]
  · rw [laneOf_hi, setLane_hi, slice_hi_append]

/-- The other lane reads as before. -/
theorem laneOf_setLane_other (x : Half) {l k : Lane} (v : Byte) (h : k ≠ l) :
    laneOf (setLane x l v) k = laneOf x k := by
  cases l <;> cases k <;> first | exact absurd rfl h | skip
  · rw [laneOf_hi, laneOf_hi, setLane_lo, slice_hi_append]
  · rw [laneOf_lo, laneOf_lo, setLane_hi, slice_lo_append]

/-- Two halves with the same lanes are the same half. -/
theorem half_ext_lanes {x y : Half} (h : ∀ l, laneOf x l = laneOf y l) : x = y := by
  have hl := h .lo
  have hh := h .hi
  rw [laneOf_lo, laneOf_lo] at hl
  rw [laneOf_hi, laneOf_hi] at hh
  rw [← slices_append x, ← slices_append y, hl, hh]

end Sys2Proof.Machine
end

