-- ==== Sys2Proof/Laws/State.lean ====
section
/-! SUPPORT. The small lemmas of the state and of the per-register record: what each update leaves in each field. -/

namespace Sys2Proof.Machine

@[simp] theorem State.finish_cfg (s : State) (b : Bank) (o : Output) : (s.finish b o).cfg = s.cfg := rfl
@[simp] theorem State.finish_bank (s : State) (b : Bank) (o : Output) : (s.finish b o).bank = b := rfl
@[simp] theorem State.finish_inbox (s : State) (b : Bank) (o : Output) : (s.finish b o).inbox = s.inbox := rfl
@[simp] theorem State.finish_outputs (s : State) (b : Bank) (o : Output) :
    (s.finish b o).outputs = s.outputs ++ [o] := rfl

@[simp] theorem State.withInbox_cfg (s : State) (ps : List Presented) : (s.withInbox ps).cfg = s.cfg := rfl
@[simp] theorem State.withInbox_bank (s : State) (ps : List Presented) : (s.withInbox ps).bank = s.bank := rfl
@[simp] theorem State.withInbox_inbox (s : State) (ps : List Presented) : (s.withInbox ps).inbox = ps := rfl
@[simp] theorem State.withInbox_outputs (s : State) (ps : List Presented) :
    (s.withInbox ps).outputs = s.outputs := rfl

@[simp] theorem State.construct_cfg (c : Config) : (State.construct c).cfg = c := rfl
@[simp] theorem State.construct_bank (c : Config) : (State.construct c).bank = powerOnBank := rfl
@[simp] theorem State.construct_inbox (c : Config) : (State.construct c).inbox = [] := rfl
@[simp] theorem State.construct_outputs (c : Config) : (State.construct c).outputs = [] := rfl

end Sys2Proof.Machine

namespace Sys2Proof

@[simp] theorem PerReg.get_set_same {α : Type} (p : PerReg α) (r : Reg) (v : α) : (p.set r v).get r = v := by
  cases r <;> rfl

theorem PerReg.get_set_other {α : Type} (p : PerReg α) {r q : Reg} (v : α) (h : q ≠ r) :
    (p.set r v).get q = p.get q := by
  cases r <;> cases q <;> first | rfl | exact absurd rfl h

theorem PerReg.get_set {α : Type} (p : PerReg α) (r q : Reg) (v : α) :
    (p.set r v).get q = if q = r then v else p.get q := by
  split
  · next h => subst h; exact p.get_set_same q v
  · next h => exact p.get_set_other v h

/-- Two records with the same entry for every register are the same record. -/
theorem PerReg.ext_get {α : Type} {p q : PerReg α} (h : ∀ r, p.get r = q.get r) : p = q := by
  cases p; cases q
  congr
  exacts [h .dispcnt, h .dispstat, h .vcount, h .bg0cnt, h .bg1cnt, h .bg2cnt, h .bg3cnt, h .bg0hofs, h .bg0vofs,
    h .bg1hofs, h .bg1vofs, h .bg2hofs, h .bg2vofs, h .bg3hofs, h .bg3vofs, h .win0h, h .win1h, h .win0v, h .win1v,
    h .winin, h .winout, h .mosaic, h .bldcnt, h .bldalpha, h .bldy]

@[simp] theorem Reg.mem_all (r : Reg) : r ∈ Reg.all := by
  cases r <;> decide

end Sys2Proof
end

