-- ==== Sys2Proof/Laws/Ops.lean ====
section
/-! SUPPORT. One lemma per shared operation, saying everything it can do, for proofs to cite instead of unfolding it. -/

namespace Sys2Proof.Machine

/-- A read of a mapped address (R90). -/
theorem readByte_mapped {c : Config} {a : Nat} {r : Reg} {l : Lane} (b : Bank)
    (h : decodeAddr c.offsets a = .mapped r l) : readByte c b a = (laneOf (b.get r) l, none) := by
  simp only [readByte, h]

/-- A read of an unmapped address (R141). -/
theorem readByte_unmapped {c : Config} {a : Nat} (b : Bank) (h : decodeAddr c.offsets a = .unmapped) :
    readByte c b a = (unmappedReadValue, unmappedNotice c .read a) := by
  simp only [readByte, h]

/-- A write to a mapped address (R91). -/
theorem writeByte_mapped {c : Config} {a : Nat} {r : Reg} {l : Lane} (b : Bank) (v : Nat)
    (h : decodeAddr c.offsets a = .mapped r l) :
    writeByte c b a v = (b.set r (setLane (b.get r) l (maskByte v)), none) := by
  simp only [writeByte, h]

/-- A write to an unmapped address (R142). -/
theorem writeByte_unmapped {c : Config} {a : Nat} (b : Bank) (v : Nat) (h : decodeAddr c.offsets a = .unmapped) :
    writeByte c b a v = (b, unmappedNotice c .write a) := by
  simp only [writeByte, h]

/-- What `exec` does, by the kind of the operation: the 79 arms are five shared operations. -/
theorem exec_by_kind (i : Instr) (s : State) :
    exec i s =
      match i.kind with
      | .reset => complete powerOnBank ⟨none, none⟩ s
      | .rdb a => busRead a s
      | .wrb a v => busWrite a v s
      | .setvcount v => complete (s.bank.set .vcount (maskHalf v)) ⟨none, none⟩ s
      | .get r => readPort r s
      | .lane r l acc => laneAccess r l acc s := by
  cases i <;> rfl

/-- Every operation answers the state with some bank and one more output record; nothing else changes. -/
theorem exec_finishes (i : Instr) (s : State) : ∃ b o, exec i s = .next (s.finish b o) := by
  rw [exec_by_kind]
  split
  · exact ⟨_, _, rfl⟩
  · exact ⟨_, _, rfl⟩
  · exact ⟨_, _, rfl⟩
  · exact ⟨_, _, rfl⟩
  · exact ⟨_, _, rfl⟩
  · next r l acc _ => cases acc <;> exact ⟨_, _, rfl⟩

/-- The kind of the row a register's getter is. -/
@[simp] theorem getOp_kind (r : Reg) : r.getOp.kind = .get r := by
  cases r <;> rfl

/-- The kind of a `LANE` row. -/
@[simp] theorem laneOp_kind (r : Reg) (l : Lane) (acc : BusAccess) : (laneOp r l acc).kind = .lane r l acc := by
  cases r <;> cases l <;> rfl

/-- A step that has nothing to do leaves the state as it is. -/
theorem step_idle {s : State} (h : s.inbox = []) : step s = .next s := by
  simp only [step, fetch, h]

/-- A sequence of one more operation. -/
theorem runOps_cons (i : Instr) (is : List Instr) (s : State) :
    ∃ b o, exec i s = .next (s.finish b o) ∧ runOps (i :: is) s = runOps is (s.finish b o) := by
  obtain ⟨b, o, h⟩ := exec_finishes i s
  exact ⟨b, o, h, by simp only [runOps, h]⟩

end Sys2Proof.Machine
end

