-- ==== Sys2Proof/Laws/Words.lean ====
section
/-! SUPPORT. The fields of the words the encoder writes. -/

namespace Sys2Proof

theorem opWord_toNat {op addr data : Nat} (ho : op < 2 ^ 4) (ha : addr < 2 ^ 32) (hd : data < 2 ^ 16) :
    (opWord op addr data).toNat = op * 2 ^ 48 + addr * 2 ^ 16 + data := by
  have h2 : op <<< 32 ||| addr = op <<< 32 + addr := (Nat.shiftLeft_add_eq_or_of_lt ha op).symm
  have h3 : (op <<< 32 + addr) <<< 16 ||| data = (op <<< 32 + addr) <<< 16 + data :=
    (Nat.shiftLeft_add_eq_or_of_lt hd _).symm
  simp only [opWord, BitVec.toNat_append, BitVec.toNat_ofNat, Nat.mod_eq_of_lt ho, Nat.mod_eq_of_lt ha,
    Nat.mod_eq_of_lt hd]
  rw [h2, h3, Nat.shiftLeft_eq, Nat.shiftLeft_eq]
  omega

/-- The three fields of a transaction word as quotients of its value (R77). -/
theorem wordOp_eq (w : BitVec 52) : wordOp w = w.toNat / 2 ^ 48 := by
  have := w.isLt
  simp only [wordOp, BitVec.extractLsb_toNat, Nat.shiftRight_eq_div_pow]
  omega

theorem wordAddr_eq (w : BitVec 52) : wordAddr w = w.toNat / 2 ^ 16 % 2 ^ 32 := by
  simp only [wordAddr, BitVec.extractLsb_toNat, Nat.shiftRight_eq_div_pow]

theorem wordData_eq (w : BitVec 52) : wordData w = w.toNat % 2 ^ 16 := by
  simp only [wordData, BitVec.extractLsb_toNat, Nat.shiftRight_eq_div_pow]
  omega

/-- The encoder's fields are the ones the decoder reads. -/
theorem wordOp_opWord {op addr data : Nat} (ho : op < 2 ^ 4) (ha : addr < 2 ^ 32) (hd : data < 2 ^ 16) :
    wordOp (opWord op addr data) = op := by
  rw [wordOp_eq, opWord_toNat ho ha hd]; omega

theorem wordAddr_opWord {op addr data : Nat} (ho : op < 2 ^ 4) (ha : addr < 2 ^ 32) (hd : data < 2 ^ 16) :
    wordAddr (opWord op addr data) = addr := by
  rw [wordAddr_eq, opWord_toNat ho ha hd]; omega

theorem wordData_opWord {op addr data : Nat} (ho : op < 2 ^ 4) (ha : addr < 2 ^ 32) (hd : data < 2 ^ 16) :
    wordData (opWord op addr data) = data := by
  rw [wordData_eq, opWord_toNat ho ha hd]; omega

/-- The address of a bus cycle is its value's low 32 bits. -/
theorem cycleAddr_eq (w : BitVec 49) : cycleAddr w = w.toNat % 2 ^ 32 := by
  simp only [cycleAddr, BitVec.extractLsb_toNat, Nat.shiftRight_eq_div_pow]
  omega

/-- The search of the `LANE` rows finds each row at its own address. -/
theorem findRow_laneRowAddr (r : Reg) (l : Lane) :
    findRow (laneRowAddr r l) laneRows = some ⟨laneRowAddr r l, r, l⟩ := by
  cases r <;> cases l <;> decide

end Sys2Proof
end

