-- ==== Sys2Proof/Laws/PerInstr.lean ====
section
/-! SUPPORT. The per-instruction family `OpField`: which form an operation is encoded in, and the `op` field of its word
(spec/30_encoding.md R77, R82). -/

namespace Sys2Proof.Laws

/-- The `op` field of what an agent presents: none for a bus cycle, which has no such field. -/
def opFieldOf : Presented → Option Nat
  | .op w => some (wordOp w)
  | .cycle _ => none

/-- The `op` field R77 gives each kind of operation; a `LANE` row is a bus cycle. -/
def opFieldOfKind : OpKind → Option Nat
  | .reset => some 0
  | .rdb _ => some 1
  | .wrb _ _ => some 2
  | .get _ => some 3
  | .setvcount _ => some 4
  | .lane _ _ _ => none

/-- The operation's word carries the `op` field of its kind, whatever its operands. -/
def OpField.Statement (i : Instr) : Prop := opFieldOf (encode i) = opFieldOfKind i.kind

/-- The first field of an encoded word, at any operands. -/
theorem wordOp_opWord_any {op : Nat} (ho : op < 2 ^ 4) (addr data : Nat) : wordOp (opWord op addr data) = op := by
  have ha : BitVec.ofNat 32 (addr % 2 ^ 32) = BitVec.ofNat 32 addr := BitVec.eq_of_toNat_eq (by simp)
  have hd : BitVec.ofNat 16 (data % 2 ^ 16) = BitVec.ofNat 16 data := BitVec.eq_of_toNat_eq (by simp)
  have h : opWord op addr data = opWord op (addr % 2 ^ 32) (data % 2 ^ 16) := by
    simp only [opWord, ha, hd]
  rw [h]
  exact wordOp_opWord ho (Nat.mod_lt _ (by decide)) (Nat.mod_lt _ (by decide))

/-- The field depends on the kind alone. -/
theorem of_kind (i : Instr) : OpField.Statement i := by
  unfold OpField.Statement encode
  cases i.kind with
  | lane r l acc => rfl
  | _ => exact congrArg some (wordOp_opWord_any (by decide) _ _)

theorem OpField.reset : OpField.Statement .reset := of_kind _
theorem OpField.rdb (a : Nat) : OpField.Statement (.rdb a) := of_kind _
theorem OpField.wrb (a : Nat) (v : Nat) : OpField.Statement (.wrb a v) := of_kind _
theorem OpField.setvcount (v : Nat) : OpField.Statement (.setvcount v) := of_kind _
theorem OpField.getDispcnt : OpField.Statement .getDispcnt := of_kind _
theorem OpField.getDispstat : OpField.Statement .getDispstat := of_kind _
theorem OpField.getVcount : OpField.Statement .getVcount := of_kind _
theorem OpField.getBg0cnt : OpField.Statement .getBg0cnt := of_kind _
theorem OpField.getBg1cnt : OpField.Statement .getBg1cnt := of_kind _
theorem OpField.getBg2cnt : OpField.Statement .getBg2cnt := of_kind _
theorem OpField.getBg3cnt : OpField.Statement .getBg3cnt := of_kind _
theorem OpField.getBg0hofs : OpField.Statement .getBg0hofs := of_kind _
theorem OpField.getBg0vofs : OpField.Statement .getBg0vofs := of_kind _
theorem OpField.getBg1hofs : OpField.Statement .getBg1hofs := of_kind _
theorem OpField.getBg1vofs : OpField.Statement .getBg1vofs := of_kind _
theorem OpField.getBg2hofs : OpField.Statement .getBg2hofs := of_kind _
theorem OpField.getBg2vofs : OpField.Statement .getBg2vofs := of_kind _
theorem OpField.getBg3hofs : OpField.Statement .getBg3hofs := of_kind _
theorem OpField.getBg3vofs : OpField.Statement .getBg3vofs := of_kind _
theorem OpField.getWin0h : OpField.Statement .getWin0h := of_kind _
theorem OpField.getWin1h : OpField.Statement .getWin1h := of_kind _
theorem OpField.getWin0v : OpField.Statement .getWin0v := of_kind _
theorem OpField.getWin1v : OpField.Statement .getWin1v := of_kind _
theorem OpField.getWinin : OpField.Statement .getWinin := of_kind _
theorem OpField.getWinout : OpField.Statement .getWinout := of_kind _
theorem OpField.getMosaic : OpField.Statement .getMosaic := of_kind _
theorem OpField.getBldcnt : OpField.Statement .getBldcnt := of_kind _
theorem OpField.getBldalpha : OpField.Statement .getBldalpha := of_kind _
theorem OpField.getBldy : OpField.Statement .getBldy := of_kind _
theorem OpField.dispcntLo (acc : BusAccess) : OpField.Statement (.dispcntLo acc) := of_kind _
theorem OpField.dispcntHi (acc : BusAccess) : OpField.Statement (.dispcntHi acc) := of_kind _
theorem OpField.dispstatLo (acc : BusAccess) : OpField.Statement (.dispstatLo acc) := of_kind _
theorem OpField.dispstatHi (acc : BusAccess) : OpField.Statement (.dispstatHi acc) := of_kind _
theorem OpField.vcountLo (acc : BusAccess) : OpField.Statement (.vcountLo acc) := of_kind _
theorem OpField.vcountHi (acc : BusAccess) : OpField.Statement (.vcountHi acc) := of_kind _
theorem OpField.bg0cntLo (acc : BusAccess) : OpField.Statement (.bg0cntLo acc) := of_kind _
theorem OpField.bg0cntHi (acc : BusAccess) : OpField.Statement (.bg0cntHi acc) := of_kind _
theorem OpField.bg1cntLo (acc : BusAccess) : OpField.Statement (.bg1cntLo acc) := of_kind _
theorem OpField.bg1cntHi (acc : BusAccess) : OpField.Statement (.bg1cntHi acc) := of_kind _
theorem OpField.bg2cntLo (acc : BusAccess) : OpField.Statement (.bg2cntLo acc) := of_kind _
theorem OpField.bg2cntHi (acc : BusAccess) : OpField.Statement (.bg2cntHi acc) := of_kind _
theorem OpField.bg3cntLo (acc : BusAccess) : OpField.Statement (.bg3cntLo acc) := of_kind _
theorem OpField.bg3cntHi (acc : BusAccess) : OpField.Statement (.bg3cntHi acc) := of_kind _
theorem OpField.bg0hofsLo (acc : BusAccess) : OpField.Statement (.bg0hofsLo acc) := of_kind _
theorem OpField.bg0hofsHi (acc : BusAccess) : OpField.Statement (.bg0hofsHi acc) := of_kind _
theorem OpField.bg0vofsLo (acc : BusAccess) : OpField.Statement (.bg0vofsLo acc) := of_kind _
theorem OpField.bg0vofsHi (acc : BusAccess) : OpField.Statement (.bg0vofsHi acc) := of_kind _
theorem OpField.bg1hofsLo (acc : BusAccess) : OpField.Statement (.bg1hofsLo acc) := of_kind _
theorem OpField.bg1hofsHi (acc : BusAccess) : OpField.Statement (.bg1hofsHi acc) := of_kind _
theorem OpField.bg1vofsLo (acc : BusAccess) : OpField.Statement (.bg1vofsLo acc) := of_kind _
theorem OpField.bg1vofsHi (acc : BusAccess) : OpField.Statement (.bg1vofsHi acc) := of_kind _
theorem OpField.bg2hofsLo (acc : BusAccess) : OpField.Statement (.bg2hofsLo acc) := of_kind _
theorem OpField.bg2hofsHi (acc : BusAccess) : OpField.Statement (.bg2hofsHi acc) := of_kind _
theorem OpField.bg2vofsLo (acc : BusAccess) : OpField.Statement (.bg2vofsLo acc) := of_kind _
theorem OpField.bg2vofsHi (acc : BusAccess) : OpField.Statement (.bg2vofsHi acc) := of_kind _
theorem OpField.bg3hofsLo (acc : BusAccess) : OpField.Statement (.bg3hofsLo acc) := of_kind _
theorem OpField.bg3hofsHi (acc : BusAccess) : OpField.Statement (.bg3hofsHi acc) := of_kind _
theorem OpField.bg3vofsLo (acc : BusAccess) : OpField.Statement (.bg3vofsLo acc) := of_kind _
theorem OpField.bg3vofsHi (acc : BusAccess) : OpField.Statement (.bg3vofsHi acc) := of_kind _
theorem OpField.win0hLo (acc : BusAccess) : OpField.Statement (.win0hLo acc) := of_kind _
theorem OpField.win0hHi (acc : BusAccess) : OpField.Statement (.win0hHi acc) := of_kind _
theorem OpField.win1hLo (acc : BusAccess) : OpField.Statement (.win1hLo acc) := of_kind _
theorem OpField.win1hHi (acc : BusAccess) : OpField.Statement (.win1hHi acc) := of_kind _
theorem OpField.win0vLo (acc : BusAccess) : OpField.Statement (.win0vLo acc) := of_kind _
theorem OpField.win0vHi (acc : BusAccess) : OpField.Statement (.win0vHi acc) := of_kind _
theorem OpField.win1vLo (acc : BusAccess) : OpField.Statement (.win1vLo acc) := of_kind _
theorem OpField.win1vHi (acc : BusAccess) : OpField.Statement (.win1vHi acc) := of_kind _
theorem OpField.wininLo (acc : BusAccess) : OpField.Statement (.wininLo acc) := of_kind _
theorem OpField.wininHi (acc : BusAccess) : OpField.Statement (.wininHi acc) := of_kind _
theorem OpField.winoutLo (acc : BusAccess) : OpField.Statement (.winoutLo acc) := of_kind _
theorem OpField.winoutHi (acc : BusAccess) : OpField.Statement (.winoutHi acc) := of_kind _
theorem OpField.mosaicLo (acc : BusAccess) : OpField.Statement (.mosaicLo acc) := of_kind _
theorem OpField.mosaicHi (acc : BusAccess) : OpField.Statement (.mosaicHi acc) := of_kind _
theorem OpField.bldcntLo (acc : BusAccess) : OpField.Statement (.bldcntLo acc) := of_kind _
theorem OpField.bldcntHi (acc : BusAccess) : OpField.Statement (.bldcntHi acc) := of_kind _
theorem OpField.bldalphaLo (acc : BusAccess) : OpField.Statement (.bldalphaLo acc) := of_kind _
theorem OpField.bldalphaHi (acc : BusAccess) : OpField.Statement (.bldalphaHi acc) := of_kind _
theorem OpField.bldyLo (acc : BusAccess) : OpField.Statement (.bldyLo acc) := of_kind _
theorem OpField.bldyHi (acc : BusAccess) : OpField.Statement (.bldyHi acc) := of_kind _

end Sys2Proof.Laws
end

