-- ==== Sys2Proof/Tests/Slice0.lean ====
section
/-! SUPPORT. The model's own tests. Expected values come from spec/30_encoding.md R73 and R77 (words), from the scenarios
and vectors of spec/95_test_vectors.md (behaviour), and from the bounds of R4 and R15 (well-formedness). The witnesses at
the end show, for each statement with hypotheses, a state and operands that meet them. -/

namespace Sys2Proof.Tests

open Sys2Proof.Machine

/-- The state an outcome goes on in. -/
def after : Result → Option State
  | .next s => some s
  | .fault _ => none
  | .refused _ => none

/-- The bank after one operation. -/
def bankAfter (i : Instr) (s : State) : Option Bank := (after (exec i s)).map (fun t => t.bank)

/-- The last output record after one operation. -/
def outputOf (i : Instr) (s : State) : Option Output :=
  match after (exec i s) with
  | some t => t.outputs.getLast?
  | none => none

/-- The reset state with one register given another value. -/
def withReg (r : Reg) (v : Half) : State := { State.reset with bank := powerOnBank.set r v }

/-- A table that meets R15 and differs from the default: `DISPSTAT` and `VCOUNT` exchanged. -/
def swappedOffsets : OffsetTable := { defaultOffsets with dispstat := 0x06, vcount := 0x04 }

/-! ## Well-formedness: each check refuses an ill-formed term -/

theorem test_wf_rdb_address : (Instr.rdb 0xFFFFFFFF).wellFormed defaultConfig = true ∧
    (Instr.rdb 0x100000000).wellFormed defaultConfig = false := by decide
theorem test_wf_wrb_address : (Instr.wrb 0x100000000 0).wellFormed defaultConfig = false := by decide
theorem test_wf_wrb_value : (Instr.wrb 0 0xFFFF).wellFormed defaultConfig = true ∧
    (Instr.wrb 0 0x10000).wellFormed defaultConfig = false := by decide
theorem test_wf_setvcount_value : (Instr.setvcount 0xFFFF).wellFormed defaultConfig = true ∧
    (Instr.setvcount 0x10000).wellFormed defaultConfig = false := by decide
theorem test_wf_lane_value : (Instr.bldyHi (.write 0xFFFF)).wellFormed defaultConfig = true ∧
    (Instr.bldyHi (.write 0x10000)).wellFormed defaultConfig = false := by decide
theorem test_wf_no_operands : Instr.reset.wellFormed defaultConfig = true ∧
    Instr.getBldy.wellFormed defaultConfig = true := by decide

/-! ## R15: each constraint refuses a table that breaks it alone -/

theorem test_table_odd_base : ¬ tableOk { defaultOffsets with win0h := 0x41 } := by decide
theorem test_table_shared_base : ¬ tableOk { defaultOffsets with win0h := 0x42 } := by decide
theorem test_table_outside_region : ¬ tableOk { defaultOffsets with win0h := 0x56 } := by decide
theorem test_table_dispcnt_moved : ¬ tableOk { defaultOffsets with dispcnt := 0x02 } := by decide
theorem test_table_bg0cnt_moved : ¬ tableOk { defaultOffsets with bg0cnt := 0x20 } := by decide
theorem test_table_region_end : ¬ tableOk { defaultOffsets with bldy := 0x4E } := by decide
theorem test_config_widths : ¬ configOk { defaultConfig with addrWidth := 26 } ∧
    ¬ configOk { defaultConfig with dataInWidth := 7 } := by decide

/-! ## Words (R77, R78, and section 2.6 of the vectors) -/

theorem test_decode_reset : decodeTableWord 56 0x0000000000000 = some .reset ∧
    decodeTableWord 56 0x0FFFFFFFFFFFF = some .reset := by decide
theorem test_decode_rdb : decodeTableWord 56 0x104000008BEEF = some (.rdb 0x04000008) := by decide
theorem test_decode_wrb : decodeTableWord 56 0x204000008AB01 = some (.wrb 0x04000008 0xAB01) := by decide
theorem test_decode_setvcount : decodeTableWord 56 0x4DEADBEEF00A0 = some (.setvcount 0x00A0) := by decide
theorem test_decode_getters_a : decodeTableWord 56 0x3000000000000 = some .getDispcnt ∧
    decodeTableWord 56 0x3000000010000 = some .getDispstat ∧
    decodeTableWord 56 0x3000000020000 = some .getVcount ∧
    decodeTableWord 56 0x3000000030000 = some .getBg0cnt ∧
    decodeTableWord 56 0x3000000040000 = some .getBg1cnt ∧
    decodeTableWord 56 0x3000000050000 = some .getBg2cnt ∧
    decodeTableWord 56 0x3000000060000 = some .getBg3cnt ∧
    decodeTableWord 56 0x3000000070000 = some .getBg0hofs ∧
    decodeTableWord 56 0x3000000080000 = some .getBg0vofs := by
  decide
theorem test_decode_getters_b : decodeTableWord 56 0x3000000090000 = some .getBg1hofs ∧
    decodeTableWord 56 0x30000000A0000 = some .getBg1vofs ∧
    decodeTableWord 56 0x30000000B0000 = some .getBg2hofs ∧
    decodeTableWord 56 0x30000000C0000 = some .getBg2vofs ∧
    decodeTableWord 56 0x30000000D0000 = some .getBg3hofs ∧
    decodeTableWord 56 0x30000000E0000 = some .getBg3vofs ∧
    decodeTableWord 56 0x30000000F0000 = some .getWin0h ∧
    decodeTableWord 56 0x3000000100000 = some .getWin1h ∧
    decodeTableWord 56 0x3000000110000 = some .getWin0v := by
  decide
theorem test_decode_getters_c : decodeTableWord 56 0x3000000120000 = some .getWin1v ∧
    decodeTableWord 56 0x3000000130000 = some .getWinin ∧
    decodeTableWord 56 0x3000000140000 = some .getWinout ∧
    decodeTableWord 56 0x3000000150000 = some .getMosaic ∧
    decodeTableWord 56 0x3000000160000 = some .getBldcnt ∧
    decodeTableWord 56 0x3000000170000 = some .getBldalpha ∧
    decodeTableWord 56 0x3000000180000 = some .getBldy := by
  decide
theorem test_decode_lanes_a : decodeTableWord 32 0x04000000 = some (.dispcntLo .read) ∧
    decodeTableWord 32 0x04000001 = some (.dispcntHi .read) ∧
    decodeTableWord 32 0x04000004 = some (.dispstatLo .read) ∧
    decodeTableWord 32 0x04000005 = some (.dispstatHi .read) ∧
    decodeTableWord 32 0x04000006 = some (.vcountLo .read) ∧
    decodeTableWord 32 0x04000007 = some (.vcountHi .read) ∧
    decodeTableWord 32 0x04000008 = some (.bg0cntLo .read) ∧
    decodeTableWord 32 0x04000009 = some (.bg0cntHi .read) ∧
    decodeTableWord 32 0x0400000A = some (.bg1cntLo .read) ∧
    decodeTableWord 32 0x0400000B = some (.bg1cntHi .read) := by
  decide
theorem test_decode_lanes_b : decodeTableWord 32 0x0400000C = some (.bg2cntLo .read) ∧
    decodeTableWord 32 0x0400000D = some (.bg2cntHi .read) ∧
    decodeTableWord 32 0x0400000E = some (.bg3cntLo .read) ∧
    decodeTableWord 32 0x0400000F = some (.bg3cntHi .read) ∧
    decodeTableWord 32 0x04000010 = some (.bg0hofsLo .read) ∧
    decodeTableWord 32 0x04000011 = some (.bg0hofsHi .read) ∧
    decodeTableWord 32 0x04000012 = some (.bg0vofsLo .read) ∧
    decodeTableWord 32 0x04000013 = some (.bg0vofsHi .read) ∧
    decodeTableWord 32 0x04000014 = some (.bg1hofsLo .read) ∧
    decodeTableWord 32 0x04000015 = some (.bg1hofsHi .read) := by
  decide
theorem test_decode_lanes_c : decodeTableWord 32 0x04000016 = some (.bg1vofsLo .read) ∧
    decodeTableWord 32 0x04000017 = some (.bg1vofsHi .read) ∧
    decodeTableWord 32 0x04000018 = some (.bg2hofsLo .read) ∧
    decodeTableWord 32 0x04000019 = some (.bg2hofsHi .read) ∧
    decodeTableWord 32 0x0400001A = some (.bg2vofsLo .read) ∧
    decodeTableWord 32 0x0400001B = some (.bg2vofsHi .read) ∧
    decodeTableWord 32 0x0400001C = some (.bg3hofsLo .read) ∧
    decodeTableWord 32 0x0400001D = some (.bg3hofsHi .read) ∧
    decodeTableWord 32 0x0400001E = some (.bg3vofsLo .read) ∧
    decodeTableWord 32 0x0400001F = some (.bg3vofsHi .read) := by
  decide
theorem test_decode_lanes_d : decodeTableWord 32 0x04000040 = some (.win0hLo .read) ∧
    decodeTableWord 32 0x04000041 = some (.win0hHi .read) ∧
    decodeTableWord 32 0x04000042 = some (.win1hLo .read) ∧
    decodeTableWord 32 0x04000043 = some (.win1hHi .read) ∧
    decodeTableWord 32 0x04000044 = some (.win0vLo .read) ∧
    decodeTableWord 32 0x04000045 = some (.win0vHi .read) ∧
    decodeTableWord 32 0x04000046 = some (.win1vLo .read) ∧
    decodeTableWord 32 0x04000047 = some (.win1vHi .read) ∧
    decodeTableWord 32 0x04000048 = some (.wininLo .read) ∧
    decodeTableWord 32 0x04000049 = some (.wininHi .read) := by
  decide
theorem test_decode_lanes_e : decodeTableWord 32 0x0400004A = some (.winoutLo .read) ∧
    decodeTableWord 32 0x0400004B = some (.winoutHi .read) ∧
    decodeTableWord 32 0x0400004C = some (.mosaicLo .read) ∧
    decodeTableWord 32 0x0400004D = some (.mosaicHi .read) ∧
    decodeTableWord 32 0x04000050 = some (.bldcntLo .read) ∧
    decodeTableWord 32 0x04000051 = some (.bldcntHi .read) ∧
    decodeTableWord 32 0x04000052 = some (.bldalphaLo .read) ∧
    decodeTableWord 32 0x04000053 = some (.bldalphaHi .read) ∧
    decodeTableWord 32 0x04000054 = some (.bldyLo .read) ∧
    decodeTableWord 32 0x04000055 = some (.bldyHi .read) := by
  decide
theorem test_decode_invalid : decodeWord 0x3000000190000 = .invalid (.noSuchRegister 25) ∧
    decodeWord 0x3040000080000 = .invalid (.noSuchRegister 0x04000008) ∧
    decodeWord 0x5000000000000 = .invalid (.reservedOp 5) ∧
    decodeWord 0xF000000000000 = .invalid (.reservedOp 15) := by decide
theorem test_decode_cycle_write : (Presented.cycle 0x1001204000009).decode = .operation (.bg0cntHi (.write 0x12)) := by
  decide
theorem test_decode_cycle_unlisted : (Presented.cycle 0x1001204000056).decode = .operation (.wrb 0x04000056 0x12) ∧
    (Presented.cycle 0x0000004000002).decode = .operation (.rdb 0x04000002) := by decide
theorem test_encode_words : encode (.wrb 0x04000008 0x01) = .op 0x2040000080001 ∧
    encode (.rdb 0x04000009) = .op 0x1040000090000 ∧ encode .getBg0cnt = .op 0x3000000030000 ∧
    encode (.setvcount 0x00A0) = .op 0x40000000000A0 ∧ encode .reset = .op 0x0000000000000 := by decide

/-! ## The address decoder (section 2.1 of the vectors) -/

theorem test_decode_addr_edges : decodeAddr defaultOffsets 0x04000000 = .mapped .dispcnt .lo ∧
    decodeAddr defaultOffsets 0x04000055 = .mapped .bldy .hi ∧
    decodeAddr defaultOffsets 0x04000056 = .unmapped ∧ decodeAddr defaultOffsets 0x03FFFFFF = .unmapped := by decide
theorem test_decode_addr_gaps : decodeAddr defaultOffsets 0x04000002 = .unmapped ∧
    decodeAddr defaultOffsets 0x04000003 = .unmapped ∧ decodeAddr defaultOffsets 0x0400001F = .mapped .bg3vofs .hi ∧
    decodeAddr defaultOffsets 0x04000020 = .unmapped ∧ decodeAddr defaultOffsets 0x0400003F = .unmapped ∧
    decodeAddr defaultOffsets 0x0400004D = .mapped .mosaic .hi ∧
    decodeAddr defaultOffsets 0x0400004E = .unmapped ∧ decodeAddr defaultOffsets 0x0400004F = .unmapped := by decide
theorem test_decode_addr_no_mirror : decodeAddr defaultOffsets 0x00000008 = .unmapped ∧
    decodeAddr defaultOffsets 0x04000808 = .unmapped ∧ decodeAddr defaultOffsets 0x05000008 = .unmapped ∧
    decodeAddr defaultOffsets 0x84000008 = .unmapped ∧ decodeAddr defaultOffsets 0x104000008 = .unmapped := by decide
theorem test_decode_by_fields : decodeByFields defaultOffsets 0x04000009 = .mapped .bg0cnt .hi ∧
    decodeByFields defaultOffsets 0x0400007F = .unmapped ∧ decodeByFields defaultOffsets 0x04000080 = .unmapped := by
  decide

/-! ## Operations (sections 1.1 and 2.2 to 2.4 of the vectors) -/

theorem test_wrb_low_lane : bankAfter (.wrb 0x04000008 0x00) (withReg .bg0cnt 0xABCD) =
    some (powerOnBank.set .bg0cnt 0xAB00) := by decide
theorem test_wrb_high_lane_wide_value : bankAfter (.wrb 0x04000009 0xABCD) State.reset =
    some (powerOnBank.set .bg0cnt 0xCD00) := by decide
theorem test_wrb_unmapped : bankAfter (.wrb 0xFFFFFFFF 0x01FF) State.reset = some powerOnBank ∧
    outputOf (.wrb 0xFFFFFFFF 0x01FF) State.reset = some ⟨none, some ⟨.write, 0xFFFFFFFF⟩⟩ := by decide
theorem test_rdb_high_lane : outputOf (.rdb 0x04000009) (withReg .bg0cnt 0x8000) =
    some ⟨some (.byte 0x80), none⟩ := by decide
theorem test_rdb_unmapped : outputOf (.rdb 0x04000002) State.reset =
    some ⟨some (.byte 0x00), some ⟨.read, 0x04000002⟩⟩ := by decide
theorem test_rdb_power_on : outputOf (.rdb 0x04000000) State.reset = some ⟨some (.byte 0x80), none⟩ := by decide
theorem test_gate_off : outputOf (.rdb 0x04000002)
    (State.construct { defaultConfig with diagEnable := false }) = some ⟨some (.byte 0x00), none⟩ := by decide
theorem test_reset_after_write : bankAfter .reset (withReg .dispcnt 0x00FF) = some powerOnBank := by decide
theorem test_setvcount_wraps : bankAfter (.setvcount 0x100A0) State.reset =
    some (powerOnBank.set .vcount 0x00A0) := by decide
theorem test_swapped_table : bankAfter (.wrb 0x04000004 0x55)
    (State.construct { defaultConfig with offsets := swappedOffsets }) = some (powerOnBank.set .vcount 0x0055) := by
  decide
theorem test_halfword_sequence : (after (runOps (wrh 0x04000008 0x0201) State.reset)).map (fun t => t.bank) =
    some (powerOnBank.set .bg0cnt 0x0201) := by decide

/-! The getters and the lane rows, each on its own register (section 2.5 of the vectors: `0x5A` low, `0xC3` high). -/

theorem test_getters_a : outputOf .getDispcnt (withReg .dispcnt 0xC35A) = some ⟨some (.half 0xC35A), none⟩ ∧
    outputOf .getDispstat (withReg .dispstat 0xC35A) = some ⟨some (.half 0xC35A), none⟩ ∧
    outputOf .getVcount (withReg .vcount 0xC35A) = some ⟨some (.half 0xC35A), none⟩ ∧
    outputOf .getBg0cnt (withReg .bg0cnt 0xC35A) = some ⟨some (.half 0xC35A), none⟩ ∧
    outputOf .getBg1cnt (withReg .bg1cnt 0xC35A) = some ⟨some (.half 0xC35A), none⟩ ∧
    outputOf .getBg2cnt (withReg .bg2cnt 0xC35A) = some ⟨some (.half 0xC35A), none⟩ ∧
    outputOf .getBg3cnt (withReg .bg3cnt 0xC35A) = some ⟨some (.half 0xC35A), none⟩ ∧
    outputOf .getBg0hofs (withReg .bg0hofs 0xC35A) = some ⟨some (.half 0xC35A), none⟩ ∧
    outputOf .getBg0vofs (withReg .bg0vofs 0xC35A) = some ⟨some (.half 0xC35A), none⟩ := by
  decide
theorem test_getters_b : outputOf .getBg1hofs (withReg .bg1hofs 0xC35A) = some ⟨some (.half 0xC35A), none⟩ ∧
    outputOf .getBg1vofs (withReg .bg1vofs 0xC35A) = some ⟨some (.half 0xC35A), none⟩ ∧
    outputOf .getBg2hofs (withReg .bg2hofs 0xC35A) = some ⟨some (.half 0xC35A), none⟩ ∧
    outputOf .getBg2vofs (withReg .bg2vofs 0xC35A) = some ⟨some (.half 0xC35A), none⟩ ∧
    outputOf .getBg3hofs (withReg .bg3hofs 0xC35A) = some ⟨some (.half 0xC35A), none⟩ ∧
    outputOf .getBg3vofs (withReg .bg3vofs 0xC35A) = some ⟨some (.half 0xC35A), none⟩ ∧
    outputOf .getWin0h (withReg .win0h 0xC35A) = some ⟨some (.half 0xC35A), none⟩ ∧
    outputOf .getWin1h (withReg .win1h 0xC35A) = some ⟨some (.half 0xC35A), none⟩ ∧
    outputOf .getWin0v (withReg .win0v 0xC35A) = some ⟨some (.half 0xC35A), none⟩ := by
  decide
theorem test_getters_c : outputOf .getWin1v (withReg .win1v 0xC35A) = some ⟨some (.half 0xC35A), none⟩ ∧
    outputOf .getWinin (withReg .winin 0xC35A) = some ⟨some (.half 0xC35A), none⟩ ∧
    outputOf .getWinout (withReg .winout 0xC35A) = some ⟨some (.half 0xC35A), none⟩ ∧
    outputOf .getMosaic (withReg .mosaic 0xC35A) = some ⟨some (.half 0xC35A), none⟩ ∧
    outputOf .getBldcnt (withReg .bldcnt 0xC35A) = some ⟨some (.half 0xC35A), none⟩ ∧
    outputOf .getBldalpha (withReg .bldalpha 0xC35A) = some ⟨some (.half 0xC35A), none⟩ ∧
    outputOf .getBldy (withReg .bldy 0xC35A) = some ⟨some (.half 0xC35A), none⟩ := by
  decide
theorem test_lane_writes_a : bankAfter (.dispcntLo (.write 0x5A)) State.reset = some (powerOnBank.set .dispcnt 0x005A) ∧
    bankAfter (.dispcntHi (.write 0xC3)) State.reset = some (powerOnBank.set .dispcnt 0xC380) ∧
    bankAfter (.dispstatLo (.write 0x5A)) State.reset = some (powerOnBank.set .dispstat 0x005A) ∧
    bankAfter (.dispstatHi (.write 0xC3)) State.reset = some (powerOnBank.set .dispstat 0xC300) ∧
    bankAfter (.vcountLo (.write 0x5A)) State.reset = some (powerOnBank.set .vcount 0x005A) ∧
    bankAfter (.vcountHi (.write 0xC3)) State.reset = some (powerOnBank.set .vcount 0xC300) ∧
    bankAfter (.bg0cntLo (.write 0x5A)) State.reset = some (powerOnBank.set .bg0cnt 0x005A) ∧
    bankAfter (.bg0cntHi (.write 0xC3)) State.reset = some (powerOnBank.set .bg0cnt 0xC300) ∧
    bankAfter (.bg1cntLo (.write 0x5A)) State.reset = some (powerOnBank.set .bg1cnt 0x005A) ∧
    bankAfter (.bg1cntHi (.write 0xC3)) State.reset = some (powerOnBank.set .bg1cnt 0xC300) := by
  decide
theorem test_lane_writes_b : bankAfter (.bg2cntLo (.write 0x5A)) State.reset = some (powerOnBank.set .bg2cnt 0x005A) ∧
    bankAfter (.bg2cntHi (.write 0xC3)) State.reset = some (powerOnBank.set .bg2cnt 0xC300) ∧
    bankAfter (.bg3cntLo (.write 0x5A)) State.reset = some (powerOnBank.set .bg3cnt 0x005A) ∧
    bankAfter (.bg3cntHi (.write 0xC3)) State.reset = some (powerOnBank.set .bg3cnt 0xC300) ∧
    bankAfter (.bg0hofsLo (.write 0x5A)) State.reset = some (powerOnBank.set .bg0hofs 0x005A) ∧
    bankAfter (.bg0hofsHi (.write 0xC3)) State.reset = some (powerOnBank.set .bg0hofs 0xC300) ∧
    bankAfter (.bg0vofsLo (.write 0x5A)) State.reset = some (powerOnBank.set .bg0vofs 0x005A) ∧
    bankAfter (.bg0vofsHi (.write 0xC3)) State.reset = some (powerOnBank.set .bg0vofs 0xC300) ∧
    bankAfter (.bg1hofsLo (.write 0x5A)) State.reset = some (powerOnBank.set .bg1hofs 0x005A) ∧
    bankAfter (.bg1hofsHi (.write 0xC3)) State.reset = some (powerOnBank.set .bg1hofs 0xC300) := by
  decide
theorem test_lane_writes_c : bankAfter (.bg1vofsLo (.write 0x5A)) State.reset = some (powerOnBank.set .bg1vofs 0x005A) ∧
    bankAfter (.bg1vofsHi (.write 0xC3)) State.reset = some (powerOnBank.set .bg1vofs 0xC300) ∧
    bankAfter (.bg2hofsLo (.write 0x5A)) State.reset = some (powerOnBank.set .bg2hofs 0x005A) ∧
    bankAfter (.bg2hofsHi (.write 0xC3)) State.reset = some (powerOnBank.set .bg2hofs 0xC300) ∧
    bankAfter (.bg2vofsLo (.write 0x5A)) State.reset = some (powerOnBank.set .bg2vofs 0x005A) ∧
    bankAfter (.bg2vofsHi (.write 0xC3)) State.reset = some (powerOnBank.set .bg2vofs 0xC300) ∧
    bankAfter (.bg3hofsLo (.write 0x5A)) State.reset = some (powerOnBank.set .bg3hofs 0x005A) ∧
    bankAfter (.bg3hofsHi (.write 0xC3)) State.reset = some (powerOnBank.set .bg3hofs 0xC300) ∧
    bankAfter (.bg3vofsLo (.write 0x5A)) State.reset = some (powerOnBank.set .bg3vofs 0x005A) ∧
    bankAfter (.bg3vofsHi (.write 0xC3)) State.reset = some (powerOnBank.set .bg3vofs 0xC300) := by
  decide
theorem test_lane_writes_d : bankAfter (.win0hLo (.write 0x5A)) State.reset = some (powerOnBank.set .win0h 0x005A) ∧
    bankAfter (.win0hHi (.write 0xC3)) State.reset = some (powerOnBank.set .win0h 0xC300) ∧
    bankAfter (.win1hLo (.write 0x5A)) State.reset = some (powerOnBank.set .win1h 0x005A) ∧
    bankAfter (.win1hHi (.write 0xC3)) State.reset = some (powerOnBank.set .win1h 0xC300) ∧
    bankAfter (.win0vLo (.write 0x5A)) State.reset = some (powerOnBank.set .win0v 0x005A) ∧
    bankAfter (.win0vHi (.write 0xC3)) State.reset = some (powerOnBank.set .win0v 0xC300) ∧
    bankAfter (.win1vLo (.write 0x5A)) State.reset = some (powerOnBank.set .win1v 0x005A) ∧
    bankAfter (.win1vHi (.write 0xC3)) State.reset = some (powerOnBank.set .win1v 0xC300) ∧
    bankAfter (.wininLo (.write 0x5A)) State.reset = some (powerOnBank.set .winin 0x005A) ∧
    bankAfter (.wininHi (.write 0xC3)) State.reset = some (powerOnBank.set .winin 0xC300) := by
  decide
theorem test_lane_writes_e : bankAfter (.winoutLo (.write 0x5A)) State.reset = some (powerOnBank.set .winout 0x005A) ∧
    bankAfter (.winoutHi (.write 0xC3)) State.reset = some (powerOnBank.set .winout 0xC300) ∧
    bankAfter (.mosaicLo (.write 0x5A)) State.reset = some (powerOnBank.set .mosaic 0x005A) ∧
    bankAfter (.mosaicHi (.write 0xC3)) State.reset = some (powerOnBank.set .mosaic 0xC300) ∧
    bankAfter (.bldcntLo (.write 0x5A)) State.reset = some (powerOnBank.set .bldcnt 0x005A) ∧
    bankAfter (.bldcntHi (.write 0xC3)) State.reset = some (powerOnBank.set .bldcnt 0xC300) ∧
    bankAfter (.bldalphaLo (.write 0x5A)) State.reset = some (powerOnBank.set .bldalpha 0x005A) ∧
    bankAfter (.bldalphaHi (.write 0xC3)) State.reset = some (powerOnBank.set .bldalpha 0xC300) ∧
    bankAfter (.bldyLo (.write 0x5A)) State.reset = some (powerOnBank.set .bldy 0x005A) ∧
    bankAfter (.bldyHi (.write 0xC3)) State.reset = some (powerOnBank.set .bldy 0xC300) := by
  decide

/-! ## The step -/

theorem test_step_idle : after (step State.reset) = some State.reset := by decide
theorem test_step_first_after_reset : after (step (State.reset.withFetchWord 56 0x20400000000FF)) =
    after (exec (.wrb 0x04000000 0xFF) State.reset) := by decide
theorem test_step_lane_row : (after (step (State.reset.withFetchWord 32 0x04000000))).map (fun t => t.outputs) =
    some [⟨some (.byte 0x80), none⟩] := by decide
theorem test_step_invalid_word : after (step (State.reset.withFetchWord 56 0x5000000000000)) = none := by decide

/-! ## Witnesses: the hypotheses of the statements are met -/

/-- `tableOk` and `configOk`, by the default and by another table. -/
theorem witness_configOk : configOk State.reset.cfg ∧ tableOk defaultOffsets ∧ tableOk swappedOffsets := by decide

/-- ConstructionChecksTheConfiguration, both clauses. -/
theorem witness_construct : (State.construct? defaultConfig).isSome = true ∧
    State.construct? { defaultConfig with addrWidth := 26 } = none := by decide

/-- DecodeFindsExactlyTheLanes: the clause outside the region at both edges, and another order of the registers. -/
theorem witness_decode_outside : (0x03FFFFFF < 0x04000000 ∨ 0x04000055 < 0x03FFFFFF) ∧
    (0x04000056 < 0x04000000 ∨ 0x04000055 < 0x04000056) := by decide
theorem witness_decode_order : Reg.all.reverse.Perm Reg.all := by decide

/-- NoMirrorsAndNoBareOffsets: a mapped lane, the last bare offset, the first address above 32 bits. -/
theorem witness_no_mirrors : decodeAddr defaultOffsets 0x04000055 = .mapped .bldy .hi ∧ 0x55 ≤ 0x55 ∧
    2 ^ 32 ≤ 0x100000000 := by decide

/-- StepKeepsTheInvariant, StepTakesOneOperation: a state that meets the invariant and steps on. -/
theorem witness_step_next : step (State.reset.withFetchWord 56 0x1000000000000) =
    exec (.rdb 0) State.reset ∧ StateOk (State.reset.withFetchWord 56 0x1000000000000) :=
  ⟨rfl, by decide, fun _ h => nomatch h⟩

/-- StepRunsTheDecodedOperation: each of its clauses. -/
theorem witness_step_clauses : (Presented.op 0x1040000080000).decode = .operation (.rdb 0x04000008) ∧
    decodeTableWord 32 0x04000055 = some (.bldyHi .read) ∧ State.reset.inbox = [] ∧
    (Presented.op 0x3000000190000).decode = .invalid (.noSuchRegister 25) ∧
    (State.reset.withInbox [.op 0x1040000080000]).inbox = [.op 0x1040000080000] := by decide

/-- ReadByteCompletes, WriteByteCompletes, EveryOperationCompletes, UnmappedAccessChangesNothing: each clause at the edge
of its range. -/
theorem witness_access_clauses : decodeAddr State.reset.cfg.offsets 0x04000000 = .mapped .dispcnt .lo ∧
    decodeAddr State.reset.cfg.offsets 0x04000055 = .mapped .bldy .hi ∧
    decodeAddr State.reset.cfg.offsets 0x04000056 = .unmapped ∧
    decodeAddr State.reset.cfg.offsets 0x03FFFFFF = .unmapped := by decide

/-- WriteLeavesOtherRegisters. -/
theorem witness_other_register (l : Lane) :
    decodeAddr State.reset.cfg.offsets 0x04000008 ≠ .mapped .bldy l := by
  cases l <;> decide

/-- LaneRowReadsCompleteOnTheirRegister, LaneRowWritesCompleteOnTheirRegister. -/
theorem witness_default_table : State.reset.cfg.offsets = defaultOffsets := rfl

/-- LowLaneWriteThenRead, HighLaneWriteAndRoundTrip, EveryBitIsPlainStorage, TornValueBetweenTwoWrites,
GetterEqualsItsTwoBytes, SetVcountEqualsTwoByteWrites, ReadReturnsTheMostRecentWrite, HalfwordPseudoOperations: a state
whose table meets R15, by the default table and by another. -/
theorem witness_state_table : tableOk State.reset.cfg.offsets ∧
    tableOk (State.construct { defaultConfig with offsets := swappedOffsets }).cfg.offsets := by decide

/-- OnlyListedWritersChangeRegisters: an operation that changes a register, and a read. -/
theorem witness_writers : bankAfter (.wrb 0x04000008 0x01) State.reset ≠ some powerOnBank ∧
    isRead (.rdb 0x04000008) = true ∧ isRead .getBldy = true ∧ isRead (.bldyLo .read) = true := by decide

/-- EveryLaneAfterEveryOperation: an address whose lane the operation does not write. -/
theorem witness_unwritten_lane : decodeAddr State.reset.cfg.offsets 0x04000009 = .mapped .bg0cnt .hi ∧
    laneWritten State.reset.cfg.offsets .bg0cnt .hi (.wrb 0x04000008 0xFF) = none := by decide

/-- VcountNeverAdvancesByItself: a write beside `VCOUNT`, at both of its neighbours. -/
theorem witness_beside_vcount (l : Lane) :
    busAccessOf (.wrb 0x04000005 0xFF) = some (0x04000005, .write 0xFF) ∧
    decodeAddr State.reset.cfg.offsets 0x04000005 ≠ .mapped .vcount l ∧
    decodeAddr State.reset.cfg.offsets 0x04000008 ≠ .mapped .vcount l := by
  cases l <;> decide

/-- ReadReturnsTheMostRecentWrite, second clause: two lanes of one register. -/
theorem witness_two_lanes : decodeAddr State.reset.cfg.offsets 0x04000008 ≠
    decodeAddr State.reset.cfg.offsets 0x04000009 := by decide

/-- InsertedReadsChangeNothingElse. -/
theorem witness_reads : ∀ i ∈ [Instr.rdb 0x04000002, .getVcount, .bg0cntHi .read], isRead i = true := by decide

/-- DecodeOfEncodeIsTheOperation: every kind of operation at the top of its range. -/
theorem witness_encodable : (Instr.wrb 0xFFFFFFFF 0xFFFF).wellFormed defaultConfig = true ∧
    (Instr.setvcount 0xFFFF).wellFormed defaultConfig = true ∧
    (Instr.bldyHi (.write 0xFFFF)).wellFormed defaultConfig = true := by decide

/-- GetterLaw's words and EveryTransactionWordDecodes: each clause at an edge of its range. -/
theorem witness_word_clauses : (0x0FFFFFFFFFFFF#52).toNat / 2 ^ 48 = 0 ∧ (0x1FFFFFFFFFFFF#52).toNat / 2 ^ 48 = 1 ∧
    (0x2FFFFFFFFFFFF#52).toNat / 2 ^ 48 = 2 ∧
    ((0x300000018FFFF#52).toNat / 2 ^ 48 = 3 ∧ (0x300000018FFFF#52).toNat / 2 ^ 16 % 2 ^ 32 = Reg.bldy.id) ∧
    ((0x3000000190000#52).toNat / 2 ^ 48 = 3 ∧ 24 < (0x3000000190000#52).toNat / 2 ^ 16 % 2 ^ 32) ∧
    (0x4000000000000#52).toNat / 2 ^ 48 = 4 ∧ 4 < (0x5000000000000#52).toNat / 2 ^ 48 ∧ 0xFFFF < 2 ^ 16 := by decide

/-- EveryBusCycleDecodes: an address a row names, and one that no row names. -/
theorem witness_cycle_listed : (0x1001204000055#49).toNat % 2 ^ 32 =
    0x04000000 + defaultOffsets.get .bldy + Lane.hi.offset := by decide
theorem witness_cycle_unlisted (r : Reg) (l : Lane) : (0x1001204000056#49).toNat % 2 ^ 32 ≠
    0x04000000 + defaultOffsets.get r + l.offset := by
  cases r <;> cases l <;> decide

/-- DecodedOperationsAreWellFormed. -/
theorem witness_decoded : (Presented.op 0x2FFFFFFFFFFFF).decode = .operation (.wrb 0xFFFFFFFF 0xFFFF) ∧
    (Presented.cycle 0x1FFFF04000055).decode = .operation (.bldyHi (.write 0xFFFF)) := by decide

end Sys2Proof.Tests
end

section
/-! The step, one rule per thing it can find in the inbox, and its inversion; then the two statements about the step
(spec/00_scope.md R5, spec/30_encoding.md R78). -/

namespace Sys2Proof.Machine

/-- The operation presented first runs on the state without it (R5). -/
theorem step_run {s : State} {p : Presented} {rest : List Presented} {i : Instr}
    (hs : s.inbox = p :: rest) (hp : p.decode = .operation i) : step s = exec i (s.withInbox rest) := by
  simp only [step, fetch, hs, hp]

/-- A word that spells no operation is refused (R78 (c), D15). -/
theorem step_invalid {s : State} {p : Presented} {rest : List Presented} {e : WordError}
    (hs : s.inbox = p :: rest) (hp : p.decode = .invalid e) : step s = .refused (.invalidWord e) := by
  simp only [step, fetch, hs, hp]

/-- A step that answers a next state either had nothing to do or ran the operation presented first. -/
theorem step_next_cases {s t : State} (h : step s = .next t) :
    (s.inbox = [] ∧ t = s) ∨
    (∃ p rest i, s.inbox = p :: rest ∧ p.decode = .operation i ∧ exec i (s.withInbox rest) = .next t) := by
  cases hs : s.inbox with
  | nil =>
    rw [step_idle hs] at h
    cases h
    exact .inl ⟨rfl, rfl⟩
  | cons p rest =>
    cases hp : p.decode with
    | operation i => exact .inr ⟨p, rest, i, rfl, hp, step_run hs hp ▸ h⟩
    | invalid e =>
      rw [step_invalid hs hp] at h
      cases h

/-- An operation that answers `t` leaves some bank and one more record, and nothing else of the state changed. -/
theorem exec_next {i : Instr} {s t : State} (h : exec i s = .next t) : ∃ b o, t = s.finish b o := by
  obtain ⟨b, o, hf⟩ := exec_finishes i s
  rw [hf] at h
  cases h
  exact ⟨b, o, rfl⟩

/-- A table word that decodes is presented as that operation. -/
theorem decode_ofTable {nbits w : Nat} {i : Instr} (h : decodeTableWord nbits w = some i) :
    (Presented.ofTable nbits w).decode = .operation i := by
  unfold decodeTableWord at h
  split at h
  · next j hj =>
    cases h
    exact hj
  · cases h

/-- A table word put first is run by the next step on the state it was put in (R5, log entry 5). -/
theorem step_withFetchWord {nbits w : Nat} {i : Instr} (s : State) (h : decodeTableWord nbits w = some i) :
    step (s.withFetchWord nbits w) = exec i s :=
  step_run (s := s.withFetchWord nbits w) rfl (decode_ofTable h)

end Sys2Proof.Machine

namespace Sys2Proof.Proofs

open Sys2Proof.Machine

/-- Settles O7: a step that answers a next state was idle, or is one operation, which keeps the configuration and the
inbox left to it and adds one record. -/
theorem stepTakesOneOperation : Obligations.StepTakesOneOperation := by
  intro s t h
  obtain ⟨hs, rfl⟩ | ⟨p, rest, i, hs, -, hx⟩ := step_next_cases h
  · exact ⟨rfl, by simp [hs], fun _ => rfl, fun hne => absurd hs hne⟩
  · obtain ⟨b, o, rfl⟩ := exec_next hx
    exact ⟨rfl, by simp [hs], fun he => by simp [hs] at he, fun _ => ⟨o, rfl⟩⟩

/-- Settles O6: one rule of the step for each clause. -/
theorem stepRunsTheDecodedOperation : Obligations.StepRunsTheDecodedOperation :=
  ⟨fun _ _ _ _ hs hp => step_run hs hp, fun s _ _ _ h => step_withFetchWord s h, fun _ hs => step_idle hs,
    fun _ _ _ _ hs hp => step_invalid hs hp⟩

end Sys2Proof.Proofs
end

section
/-! What a table that meets R15 makes of the decoder: it is exactly the inverse of the lane addresses (spec/10_state.md
R15, spec/30_encoding.md R72). -/

namespace Sys2Proof.Machine

/-- The search fails exactly when no lane of the list sits at the offset, whatever the table. -/
theorem findLane_eq_unmapped_iff (t : OffsetTable) (off : Nat) (rs : List Reg) :
    findLane t off rs = .unmapped ↔ ∀ r ∈ rs, ∀ l : Lane, off ≠ t.get r + l.offset := by
  induction rs with
  | nil => simp [findLane]
  | cons q qs ih =>
    rw [findLane, List.forall_mem_cons]
    split
    · next hlo => exact iff_of_false nofun fun h => h.1 .lo hlo
    · next hlo =>
      split
      · next hhi => exact iff_of_false nofun fun h => h.1 .hi hhi
      · next hhi =>
        have hq : ∀ l : Lane, off ≠ t.get q + l.offset
          | .lo => hlo
          | .hi => hhi
        rw [ih, and_iff_right hq]

theorem laneOffset_le_one (l : Lane) : l.offset ≤ 1 := by
  cases l <;> decide

theorem laneOffset_inj {l k : Lane} (h : l.offset = k.offset) : l = k := by
  cases l <;> cases k <;> cases h <;> rfl

/-- Two lanes at one offset are the same lane: the bases are even (R15 (a)) and distinct (R15 (c)). -/
theorem tableOk.lane_inj {t : OffsetTable} (ht : tableOk t) {r q : Reg} {l k : Lane}
    (h : t.get r + l.offset = t.get q + k.offset) : r = q ∧ l = k := by
  obtain ⟨heven, hnodup, -⟩ := ht
  have hbase : t.get r = t.get q := by
    have hr := heven r r.mem_all
    have hq := heven q q.mem_all
    have hl := laneOffset_le_one l
    have hk := laneOffset_le_one k
    omega
  exact ⟨List.inj_on_of_nodup_map hnodup r.mem_all q.mem_all hbase, laneOffset_inj (by omega)⟩

/-- Every lane lies in the region (R15 (d)). -/
theorem tableOk.lane_le {t : OffsetTable} (ht : tableOk t) (r : Reg) (l : Lane) : t.get r + l.offset ≤ 0x55 := by
  obtain ⟨-, -, hle, -⟩ := ht
  exact Nat.add_le_add (hle r r.mem_all) (laneOffset_le_one l)

/-- Inside the region an offset is unmapped exactly when no lane sits there, whatever the table. -/
theorem decodeAddr_unmapped_iff (t : OffsetTable) {off : Nat} (h : off ≤ 0x55) :
    decodeAddr t (ioBase + off) = .unmapped ↔ ∀ (r : Reg) (l : Lane), off ≠ t.get r + l.offset := by
  rw [decodeAddr_inside t h, findLane_eq_unmapped_iff]
  exact ⟨fun hr r => hr r r.mem_all, fun hr r _ => hr r⟩

/-- The decoder finds each lane at its own address (R72). -/
theorem tableOk.decodeAddr_laneAddr {t : OffsetTable} (ht : tableOk t) (r : Reg) (l : Lane) :
    decodeAddr t (laneAddr t r l) = .mapped r l := by
  have hin := ht.lane_le r l
  rw [laneAddr, Nat.add_assoc]
  cases hd : decodeAddr t (ioBase + (t.get r + l.offset)) with
  | unmapped => exact absurd rfl ((decodeAddr_unmapped_iff t hin).1 hd r l)
  | mapped q k =>
    rw [decodeAddr_inside t hin] at hd
    obtain ⟨rfl, rfl⟩ := ht.lane_inj (findLane_found hd).1
    rfl

/-- The 50 lanes. -/
def allLanes : List (Reg × Lane) := Reg.all.product [.lo, .hi]

theorem mem_allLanes (p : Reg × Lane) : p ∈ allLanes :=
  List.mem_product.2 ⟨p.1.mem_all, by cases p.2 <;> decide⟩

/-- The offsets of the 50 lanes from `ioBase`. -/
def laneOffsets (t : OffsetTable) : List Nat := allLanes.map fun p => t.get p.1 + p.2.offset

theorem length_laneOffsets (t : OffsetTable) : (laneOffsets t).length = 50 := by
  rw [laneOffsets, List.length_map]
  rfl

theorem tableOk.nodup_laneOffsets {t : OffsetTable} (ht : tableOk t) : (laneOffsets t).Nodup :=
  List.Nodup.map (fun _ _ h => Prod.ext_iff.2 (ht.lane_inj h)) (by decide)

/-- The mapped offsets of the region are the 50 lanes' offsets, in another order. -/
theorem tableOk.mapped_perm_laneOffsets {t : OffsetTable} (ht : tableOk t) :
    ((List.range 86).filter fun off => decide (decodeAddr t (ioBase + off) ≠ .unmapped)).Perm
      (laneOffsets t) := by
  refine (List.perm_ext_iff_of_nodup (List.nodup_range.filter _) ht.nodup_laneOffsets).2 fun off => ?_
  simp only [List.mem_filter, List.mem_range, decide_eq_true_eq, laneOffsets, List.mem_map]
  constructor
  · rintro ⟨hlt, hmapped⟩
    rw [Ne, decodeAddr_unmapped_iff t (by omega)] at hmapped
    push Not at hmapped
    obtain ⟨r, l, rfl⟩ := hmapped
    exact ⟨(r, l), mem_allLanes _, rfl⟩
  · rintro ⟨⟨r, l⟩, -, rfl⟩
    have hin := ht.lane_le r l
    exact ⟨Nat.lt_succ_of_le hin, fun hd => (decodeAddr_unmapped_iff t hin).1 hd r l rfl⟩

end Sys2Proof.Machine
end

section
/-! The effect of an operation: the bank it leaves and the record it adds, as a function of the configuration and the
bank alone. Every rule about all operations is a fact about this function. -/

namespace Sys2Proof.Machine

/-- What a bus access leaves and records (R90, R91). -/
def accessEffect (c : Config) (b : Bank) (a : Nat) : BusAccess → Bank × Output
  | .read => (b, ⟨some (.byte (readByte c b a).1), (readByte c b a).2⟩)
  | .write v => ((writeByte c b a v).1, ⟨none, (writeByte c b a v).2⟩)

/-- What an operation leaves and records. -/
def effect (i : Instr) (c : Config) (b : Bank) : Bank × Output :=
  match i.kind with
  | .reset => (powerOnBank, ⟨none, none⟩)
  | .rdb a => accessEffect c b a .read
  | .wrb a v => accessEffect c b a (.write v)
  | .setvcount v => (b.set .vcount (maskHalf v), ⟨none, none⟩)
  | .get r => (b, ⟨some (.half (b.get r)), none⟩)
  | .lane r l acc => accessEffect c b (laneRowAddr r l) acc

/-- Every operation completes with its effect, and nothing else of the state enters or changes. -/
theorem exec_eq_effect (i : Instr) (s : State) :
    exec i s = .next (s.finish (effect i s.cfg s.bank).1 (effect i s.cfg s.bank).2) := by
  rw [exec_by_kind, effect]
  cases i.kind with
  | lane r l acc => cases acc <;> rfl
  | _ => rfl

/-- An operation that answers `t` answers its effect. -/
theorem eq_effect_of_exec {i : Instr} {s t : State} (h : exec i s = .next t) :
    t = s.finish (effect i s.cfg s.bank).1 (effect i s.cfg s.bank).2 := by
  rw [exec_eq_effect] at h
  cases h
  rfl

/-- An operation that presents a bus access has the effect of the access. -/
theorem effect_of_access {i : Instr} {a : Nat} {acc : BusAccess} (h : busAccessOf i = some (a, acc))
    (c : Config) (b : Bank) : effect i c b = accessEffect c b a acc := by
  unfold busAccessOf at h
  unfold effect
  cases hk : i.kind <;> simp only [hk] at h ⊢ <;> cases h <;> rfl

/-- An operation that does not use the bus emits no notice. -/
theorem effect_notice_of_no_access {i : Instr} (h : busAccessOf i = none) (c : Config) (b : Bank) :
    (effect i c b).2.notice = none := by
  unfold busAccessOf at h
  unfold effect
  cases hk : i.kind <;> simp only [hk] at h ⊢ <;> cases h

/-- A bus access emits the notice of its kind at an unmapped address, and none at a mapped one (R140, R143). -/
theorem accessEffect_notice (c : Config) (b : Bank) (a : Nat) (acc : BusAccess) :
    (accessEffect c b a acc).2.notice =
      if decodeAddr c.offsets a = .unmapped then unmappedNotice c (accessKind acc) a else none := by
  cases hd : decodeAddr c.offsets a with
  | unmapped => cases acc <;> simp [accessEffect, accessKind, readByte_unmapped b hd, writeByte_unmapped b _ hd]
  | mapped r l => cases acc <;> simp [accessEffect, readByte_mapped b hd, writeByte_mapped b _ hd]

/-- The record of an unmapped access holds `0x00` for a read and no value for a write (R141, R142). -/
theorem accessEffect_value_unmapped {c : Config} {a : Nat} (h : decodeAddr c.offsets a = .unmapped) (b : Bank)
    (acc : BusAccess) :
    (accessEffect c b a acc).2.value = match accessKind acc with
      | .read => some (.byte 0x00)
      | .write => none := by
  cases acc <;> simp [accessEffect, accessKind, readByte_unmapped b h, unmappedReadValue]

/-- A notice is emitted only under an enabled gate, and names the kind and the address (R143, R144). -/
theorem unmappedNotice_eq_some_iff (c : Config) (k : AccessKind) (a : Nat) (d : Diag) :
    unmappedNotice c k a = some d ↔ c.diagEnable = true ∧ d = ⟨k, a⟩ := by
  cases hc : c.diagEnable <;> simp [unmappedNotice, hc, eq_comm]

/-- Every operation's record is one the rules allow (R140 to R144). -/
theorem outputOk_effect (i : Instr) (c : Config) (b : Bank) : outputOk c (effect i c b).2 := by
  intro d hd
  cases ha : busAccessOf i with
  | none => simp [effect_notice_of_no_access ha] at hd
  | some access =>
    obtain ⟨a, acc⟩ := access
    rw [effect_of_access ha] at hd ⊢
    rw [accessEffect_notice] at hd
    split at hd
    · next hu =>
      obtain ⟨hgate, rfl⟩ := (unmappedNotice_eq_some_iff c _ a d).1 hd
      exact ⟨hgate, hu, accessEffect_value_unmapped hu b acc⟩
    · cases hd

/-- The notice does not depend on the bank (R12). -/
theorem effect_notice_bank (i : Instr) (c : Config) (b b' : Bank) :
    (effect i c b).2.notice = (effect i c b').2.notice := by
  cases ha : busAccessOf i with
  | none => rw [effect_notice_of_no_access ha, effect_notice_of_no_access ha]
  | some access => rw [effect_of_access ha, effect_of_access ha, accessEffect_notice, accessEffect_notice]

/-- A read leaves the bank as it is (R45 (d)). -/
theorem effect_bank_of_isRead {i : Instr} (h : isRead i = true) (c : Config) (b : Bank) : (effect i c b).1 = b := by
  unfold isRead at h
  unfold effect
  cases hk : i.kind with
  | rdb a => rfl
  | get r => rfl
  | lane r l acc =>
    cases acc with
    | read => rfl
    | write v => simp [hk] at h
  | _ => simp [hk] at h

/-- The operation of the kind `reset`, and those of the kind `setvcount`, are one row each. -/
theorem kind_eq_reset {i : Instr} (h : i.kind = .reset) : i = .reset := by
  cases i <;> cases h
  rfl

theorem kind_eq_setvcount {i : Instr} {v : Nat} (h : i.kind = .setvcount v) : i = .setvcount v := by
  cases i <;> cases h
  rfl

/-- What an operation can do to the bank: the closed list of writers (R13). -/
theorem effect_bank_cases (i : Instr) (c : Config) (b : Bank) :
    i = .reset ∨
    (∃ v, i = .setvcount v ∧ (effect i c b).1 = b.set .vcount (maskHalf v)) ∨
    (∃ a v, busAccessOf i = some (a, .write v) ∧ (effect i c b).1 = (writeByte c b a v).1) ∨
    (effect i c b).1 = b := by
  cases ha : busAccessOf i with
  | some access =>
    obtain ⟨a, _ | v⟩ := access
    · exact .inr (.inr (.inr (by rw [effect_of_access ha]; rfl)))
    · exact .inr (.inr (.inl ⟨a, v, rfl, by rw [effect_of_access ha]; rfl⟩))
  | none =>
    cases hk : i.kind with
    | reset => exact .inl (kind_eq_reset hk)
    | setvcount v => exact .inr (.inl ⟨v, kind_eq_setvcount hk, by simp [effect, hk]⟩)
    | get r => exact .inr (.inr (.inr (by simp [effect, hk])))
    | _ => simp [busAccessOf, hk] at ha

/-- A byte write changes a register only where its address decodes to a lane of it, and then that lane only (R91). -/
theorem writeByte_changes {c : Config} {b : Bank} {a v : Nat} {r : Reg}
    (h : (writeByte c b a v).1.get r ≠ b.get r) :
    ∃ l, decodeAddr c.offsets a = .mapped r l ∧
      ∀ k, k ≠ l → laneOf ((writeByte c b a v).1.get r) k = laneOf (b.get r) k := by
  cases hd : decodeAddr c.offsets a with
  | unmapped => simp [writeByte_unmapped b v hd] at h
  | mapped q l =>
    rw [writeByte_mapped b v hd] at h ⊢
    by_cases hq : r = q
    · subst hq
      exact ⟨l, rfl, fun k hk => by rw [PerReg.get_set_same, laneOf_setLane_other _ _ hk]⟩
    · exact absurd (PerReg.get_set_other _ _ hq) h

end Sys2Proof.Machine
end

section
/-! The operations on one lane and one register under a table that meets R15, and two byte writes in a row. -/

namespace Sys2Proof.Machine

/-- A byte write at a lane's address replaces that lane, with no notice (R91). -/
theorem exec_wrb_laneAddr {s : State} (ht : tableOk s.cfg.offsets) (r : Reg) (l : Lane) (v : Nat) :
    exec (.wrb (laneAddr s.cfg.offsets r l) v) s =
      .next (s.finish (s.bank.set r (setLane (s.bank.get r) l (maskByte v))) ⟨none, none⟩) := by
  rw [exec_eq_effect, effect_of_access rfl, accessEffect, writeByte_mapped _ _ (ht.decodeAddr_laneAddr r l)]

/-- A register's getter records its whole value and leaves the bank (R100). -/
theorem exec_getOp (r : Reg) (s : State) :
    exec r.getOp s = .next (s.finish s.bank ⟨some (.half (s.bank.get r)), none⟩) := by
  rw [exec_by_kind, getOp_kind]
  rfl

/-- Both lanes replaced, nothing of the old value is left. -/
theorem setLane_lo_hi (x : Half) (lo hi : Byte) : setLane (setLane x .lo lo) .hi hi = hi ++ lo := by
  rw [setLane_hi, setLane_lo, slice_lo_append]

/-- A byte's own value masks to the byte (R74). -/
@[simp] theorem maskByte_toNat (v : Byte) : maskByte v.toNat = v := by
  rw [maskByte, BitVec.ofNat_toNat, BitVec.setWidth_eq]

/-- The two byte writes of a value, low lane first, leave the register at the value. -/
theorem runOps_wrb_lo_hi {s : State} (ht : tableOk s.cfg.offsets) (r : Reg) (lo hi : Byte) :
    ∃ t, runOps [.wrb (laneAddr s.cfg.offsets r .lo) lo.toNat,
        .wrb (laneAddr s.cfg.offsets r .hi) hi.toNat] s = .next t ∧
      t.bank.get r = hi ++ lo := by
  have hlo := exec_wrb_laneAddr ht r .lo lo.toNat
  have hhi := exec_wrb_laneAddr (s := s.finish (s.bank.set r (setLane (s.bank.get r) .lo lo)) ⟨none, none⟩) ht r .hi
    hi.toNat
  simp only [maskByte_toNat, State.finish_cfg] at hlo hhi
  refine ⟨_, by simp only [runOps, hlo, hhi]; rfl, ?_⟩
  simp [setLane_lo_hi]

end Sys2Proof.Machine
end

section
/-! The statements about the invariant, the writers, the map's size, the plain storage and the record list
(spec/10_state.md R10 to R16, R43, R45, spec/20_memory.md R51). -/

namespace Sys2Proof.Machine

theorem StateOk.withInbox {s : State} (hs : StateOk s) (ps : List Presented) : StateOk (s.withInbox ps) := hs

/-- One more allowed record keeps the invariant, whatever bank the operation leaves. -/
theorem StateOk.finish {s : State} (hs : StateOk s) (b : Bank) {o : Output} (ho : outputOk s.cfg o) :
    StateOk (s.finish b o) := by
  obtain ⟨hcfg, houts⟩ := hs
  refine ⟨hcfg, fun o' ho' => ?_⟩
  rw [State.finish_outputs, List.mem_append, List.mem_singleton] at ho'
  obtain hold | rfl := ho'
  · exact houts o' hold
  · exact ho

/-- Construction from a configuration that meets R4 and R15 meets the invariant (R132). -/
theorem StateOk.construct {c : Config} (hc : configOk c) : StateOk (State.construct c) :=
  ⟨hc, fun _ h => nomatch h⟩

end Sys2Proof.Machine

namespace Sys2Proof.Proofs

open Sys2Proof.Machine

/-- Settles O5: a step is idle, or it adds the record of one operation, which is an allowed one. -/
theorem stepKeepsTheInvariant : Obligations.StepKeepsTheInvariant := by
  intro s t hs h
  obtain ⟨-, rfl⟩ | ⟨p, rest, i, -, -, hx⟩ := step_next_cases h
  · exact hs
  · rw [eq_effect_of_exec hx]
    exact (hs.withInbox rest).finish _ (outputOk_effect i s.cfg s.bank)

/-- Settles O33: by the closed list of what an operation can do to the bank. -/
theorem onlyListedWritersChangeRegisters : Obligations.OnlyListedWritersChangeRegisters := by
  intro i s t h
  obtain rfl := eq_effect_of_exec h
  refine ⟨fun r => Nat.le_of_lt_succ (BitVec.isLt _), fun r hr => ?_, fun _ => rfl,
    fun hread => effect_bank_of_isRead hread s.cfg s.bank⟩
  rw [State.finish_bank] at hr ⊢
  obtain hi | ⟨v, hi, hb⟩ | ⟨a, v, ha, hb⟩ | hb := effect_bank_cases i s.cfg s.bank
  · exact .inl hi
  · refine .inr (.inl ⟨?_, v, hi⟩)
    by_contra hne
    exact hr (by rw [hb, PerReg.get_set_other _ _ hne])
  · rw [hb] at hr ⊢
    obtain ⟨l, hd, hkeep⟩ := writeByte_changes hr
    exact .inr (.inr ⟨a, v, l, ha, hd, hkeep⟩)
  · exact absurd (by rw [hb]) hr

/-- Settles O13: the mapped offsets are the 50 lanes' offsets, and the unmapped ones are the rest of the 86. -/
theorem fiftyOfEightySixAddressesAreMapped : Obligations.FiftyOfEightySixAddressesAreMapped := by
  intro t ht
  have hmapped := ht.mapped_perm_laneOffsets.length_eq.trans (length_laneOffsets t)
  refine ⟨hmapped, ?_⟩
  have hsum := List.length_eq_length_filter_add (l := List.range 86)
    fun off => decide (decodeAddr t (ioBase + off) ≠ .unmapped)
  simp only [ne_eq, decide_not, Bool.not_not, List.length_range] at hsum hmapped
  rw [hmapped] at hsum
  exact (Nat.add_left_cancel (n := 50) (m := 36) hsum).symm

/-- Settles O20: the two byte writes leave the value the getter then records; the notice is a function of the
configuration and the operation alone. -/
theorem everyBitIsPlainStorage : Obligations.EveryBitIsPlainStorage := by
  constructor
  · intro s r x ht
    obtain ⟨t, hrun, hval⟩ := runOps_wrb_lo_hi ht r (x.extractLsb' 0 8) (x.extractLsb' 8 8)
    rw [slices_append] at hval
    exact ⟨t, _, hrun, exec_getOp r t, by rw [hval]; rfl⟩
  · intro i s b
    exact ⟨_, _, _, _, exec_eq_effect i s, exec_eq_effect i { s with bank := b }, rfl, rfl,
      effect_notice_bank i s.cfg s.bank b⟩

/-- Settles O36: the effect is a function of the configuration and the bank, which both runs share. -/
theorem earlierOutputsAreNeverRead : Obligations.EarlierOutputsAreNeverRead := by
  intro i s os
  exact ⟨_, _, _, exec_eq_effect i s, exec_eq_effect i { s with outputs := os }, rfl, rfl, rfl, rfl, rfl⟩

/-- Settles O4: the default configuration meets R4 and R15, and no record stands yet. -/
theorem resetMeetsTheInvariant : Obligations.ResetMeetsTheInvariant :=
  StateOk.construct (by decide)

end Sys2Proof.Proofs
end

section
/-! The decoder read backwards: a lane is found at its own address and nowhere else (spec/20_memory.md R52, R53). -/

namespace Sys2Proof.Machine

/-- An address that decodes to a lane is that lane's address, whatever the table: the compare is full-width, so a lane
has no mirror (R52). -/
theorem eq_laneAddr_of_decodeAddr {t : OffsetTable} {a : Nat} {r : Reg} {l : Lane}
    (h : decodeAddr t a = .mapped r l) : a = laneAddr t r l := by
  by_cases hout : a < ioBase ∨ regionEnd < a
  · rw [decodeAddr_outside t hout] at h
    cases h
  · obtain ⟨hlow, hhigh⟩ := not_or.1 hout
    obtain ⟨off, rfl⟩ := Nat.exists_eq_add_of_le (Nat.not_lt.1 hlow)
    have hin : off ≤ 0x55 := Nat.le_of_add_le_add_left (Nat.not_lt.1 hhigh)
    rw [decodeAddr_inside t hin] at h
    rw [laneAddr, Nat.add_assoc, ← (findLane_found h).1]

end Sys2Proof.Machine

namespace Sys2Proof.Proofs

open Sys2Proof.Machine

/-- Settles O12: a mapped address is its lane's own, and the two ranges lie below and above the region. -/
theorem noMirrorsAndNoBareOffsets : Obligations.NoMirrorsAndNoBareOffsets :=
  ⟨fun _ _ _ _ _ ha hb => (eq_laneAddr_of_decodeAddr ha).trans (eq_laneAddr_of_decodeAddr hb).symm,
    fun t _ ha => decodeAddr_outside t (.inl (Nat.lt_of_le_of_lt ha (by decide))),
    fun t _ ha => decodeAddr_outside t (.inr (Nat.lt_of_lt_of_le (by decide) ha))⟩

end Sys2Proof.Proofs
end

section
/-! What every operation, and every sequence of operations, leaves in every lane: the byte of the last writer, or what
the lane held before (spec/20_memory.md R60). -/

namespace Sys2Proof.Machine

/-- The power-on byte of each lane (R14). -/
theorem laneOf_powerOnBank (r : Reg) (l : Lane) :
    laneOf (powerOnBank.get r) l = if r = .dispcnt ∧ l = .lo then 0x80 else 0x00 := by
  cases r <;> cases l <;> decide

/-- The low byte of a `SETVCOUNT` operand is its bits 7:0 (R76). -/
theorem laneOf_maskHalf_lo (v : Nat) : laneOf (maskHalf v) .lo = BitVec.ofNat 8 v := by
  rw [laneOf_lo, maskHalf]
  apply BitVec.eq_of_toNat_eq
  simp only [BitVec.extractLsb'_toNat, BitVec.toNat_ofNat, Nat.shiftRight_zero]
  omega

/-- The high byte of a `SETVCOUNT` operand is its bits 15:8 (R76). -/
theorem laneOf_maskHalf_hi (v : Nat) : laneOf (maskHalf v) .hi = BitVec.ofNat 8 (v / 2 ^ 8) := by
  rw [laneOf_hi, maskHalf]
  apply BitVec.eq_of_toNat_eq
  simp only [BitVec.extractLsb'_toNat, BitVec.toNat_ofNat, Nat.shiftRight_eq_div_pow]
  omega

/-- A byte write puts its byte into the lane its address decodes to, and keeps the 49 others (R91, R142). -/
theorem laneOf_writeByte (c : Config) (b : Bank) (a v : Nat) (r : Reg) (l : Lane) :
    laneOf ((writeByte c b a v).1.get r) l =
      if decodeAddr c.offsets a = .mapped r l then maskByte v else laneOf (b.get r) l := by
  cases hd : decodeAddr c.offsets a with
  | unmapped => simp [writeByte_unmapped b v hd]
  | mapped q k =>
    rw [writeByte_mapped b v hd]
    by_cases hq : r = q
    · subst hq
      by_cases hk : l = k
      · subst hk
        simp
      · simp [laneOf_setLane_other _ _ hk, Ne.symm hk]
    · simp [PerReg.get_set_other _ _ hq, Ne.symm hq]

/-- A bus access leaves in each lane the byte it writes there, or what the lane held. -/
theorem laneOf_accessEffect (c : Config) (b : Bank) (a : Nat) (acc : BusAccess) (r : Reg) (l : Lane) :
    laneOf ((accessEffect c b a acc).1.get r) l =
      (accessWrites c.offsets r l a acc).getD (laneOf (b.get r) l) := by
  cases acc with
  | read => rfl
  | write v =>
    rw [accessEffect, laneOf_writeByte, accessWrites]
    split <;> rfl

/-- Every operation leaves in each lane the byte it writes there, or what the lane held (R13). -/
theorem laneOf_effect (i : Instr) (c : Config) (b : Bank) (r : Reg) (l : Lane) :
    laneOf ((effect i c b).1.get r) l = (laneWritten c.offsets r l i).getD (laneOf (b.get r) l) := by
  unfold effect laneWritten
  cases i.kind with
  | reset => exact laneOf_powerOnBank r l
  | rdb a => rfl
  | wrb a v => exact laneOf_accessEffect c b a (.write v) r l
  | setvcount v =>
    by_cases hr : r = .vcount
    · subst hr
      cases l
      · simp [laneOf_maskHalf_lo]
      · simp [laneOf_maskHalf_hi]
    · simp [PerReg.get_set_other _ _ hr, hr]
  | get q => rfl
  | lane q k acc => exact laneOf_accessEffect c b (laneRowAddr q k) acc r l

/-- The last writer of a sequence is that of its tail, if the tail has one, and else its first operation. -/
theorem lastWritten_cons (t : OffsetTable) (r : Reg) (l : Lane) (i : Instr) (is : List Instr) :
    lastWritten t r l (i :: is) = (lastWritten t r l is).or (laneWritten t r l i) := by
  rw [lastWritten]
  cases lastWritten t r l is <;> rfl

/-- Every sequence completes, keeps the configuration and leaves in each lane the byte of its last writer, or what the
lane held before (R60). -/
theorem runOps_lanes (is : List Instr) (s : State) :
    ∃ t, runOps is s = .next t ∧ t.cfg = s.cfg ∧
      ∀ r l, laneOf (t.bank.get r) l = (lastWritten s.cfg.offsets r l is).getD (laneOf (s.bank.get r) l) := by
  induction is generalizing s with
  | nil => exact ⟨s, rfl, rfl, fun _ _ => rfl⟩
  | cons i is ih =>
    obtain ⟨t, hrun, hcfg, hlanes⟩ := ih (s.finish (effect i s.cfg s.bank).1 (effect i s.cfg s.bank).2)
    refine ⟨t, by simp only [runOps, exec_eq_effect, hrun], hcfg, fun r l => ?_⟩
    rw [hlanes, State.finish_cfg, State.finish_bank, laneOf_effect, lastWritten_cons]
    cases lastWritten s.cfg.offsets r l is <;> rfl

/-- Two banks with the same 50 lanes are the same bank (R10). -/
theorem bank_ext_lanes {b b' : Bank} (h : ∀ r l, laneOf (b.get r) l = laneOf (b'.get r) l) : b = b' :=
  PerReg.ext_get fun r => half_ext_lanes (h r)

/-- Byte writes to addresses that decode differently have no lane in common, so either order has the same last writers. -/
theorem lastWritten_wrb_swap {t : OffsetTable} {a b : Nat} (h : decodeAddr t a ≠ decodeAddr t b) (v w : Nat)
    (r : Reg) (l : Lane) :
    lastWritten t r l [.wrb a v, .wrb b w] = lastWritten t r l [.wrb b w, .wrb a v] := by
  simp only [lastWritten_cons]
  simp only [lastWritten, Option.none_or, laneWritten, Instr.kind, accessWrites]
  by_cases ha : decodeAddr t a = .mapped r l
  · have hb : decodeAddr t b ≠ .mapped r l := fun hb => h (ha.trans hb.symm)
    rw [if_neg hb, Option.none_or, Option.or_none]
  · rw [if_neg ha, Option.or_none, Option.none_or]

/-- A read at a lane's address records the lane's byte, with no notice (R90). -/
theorem exec_rdb_laneAddr {s : State} (ht : tableOk s.cfg.offsets) (r : Reg) (l : Lane) :
    exec (.rdb (laneAddr s.cfg.offsets r l)) s =
      .next (s.finish s.bank ⟨some (.byte (laneOf (s.bank.get r) l)), none⟩) := by
  rw [exec_eq_effect, effect_of_access rfl, accessEffect, readByte_mapped _ (ht.decodeAddr_laneAddr r l)]

end Sys2Proof.Machine

namespace Sys2Proof.Proofs

open Sys2Proof.Machine Sys2Proof.Claims

/-- Settles O38: by induction on the sequence, every lane holds the byte of its last writer; and the two orders of two
byte writes have the same last writer for every lane. -/
theorem readReturnsTheMostRecentWrite : Obligations.ReadReturnsTheMostRecentWrite := by
  constructor
  · intro is s r l ht
    obtain ⟨t, hrun, hcfg, hlanes⟩ := runOps_lanes is s
    rw [← hcfg] at ht ⊢
    refine ⟨t, _, hrun, exec_rdb_laneAddr ht r l, ?_⟩
    rw [State.finish_outputs, hlanes, hcfg, quiet]
  · intro s a b v w hne
    obtain ⟨t, hrunt, -, ht⟩ := runOps_lanes [.wrb a v, .wrb b w] s
    obtain ⟨u, hrunu, -, hu⟩ := runOps_lanes [.wrb b w, .wrb a v] s
    exact ⟨t, u, hrunt, hrunu, bank_ext_lanes fun r l => by rw [ht, hu, lastWritten_wrb_swap hne]⟩

end Sys2Proof.Proofs
end

section
/-! The decoder from both sides, for a table that meets R15: it is the inverse of the lane addresses in any order of the
registers (spec/30_encoding.md R72), and the fields of an address give the same inverse (R71). -/

namespace Sys2Proof.Machine

/-- Two answers that name the same lanes are the same answer. -/
theorem Target.ext_mapped {x y : Target} (h : ∀ r l, x = .mapped r l ↔ y = .mapped r l) : x = y := by
  cases x with
  | mapped r l => exact ((h r l).1 rfl).symm
  | unmapped =>
    cases y with
    | mapped r l => exact (h r l).2 rfl
    | unmapped => rfl

/-- The search finds exactly the lane of the list that sits at the offset (R15 (a), (c)). -/
theorem tableOk.findLane_eq_mapped_iff {t : OffsetTable} (ht : tableOk t) {off : Nat} {rs : List Reg} {r : Reg}
    {l : Lane} : findLane t off rs = .mapped r l ↔ off = t.get r + l.offset ∧ r ∈ rs := by
  refine ⟨findLane_found, fun ⟨hoff, hmem⟩ => ?_⟩
  cases hd : findLane t off rs with
  | unmapped => exact absurd hoff ((findLane_eq_unmapped_iff t off rs).1 hd r hmem l)
  | mapped q k =>
    obtain ⟨rfl, rfl⟩ := ht.lane_inj ((findLane_found hd).1.symm.trans hoff)
    rfl

/-- The order in which the registers are tried does not matter (R72). -/
theorem tableOk.findLane_perm {t : OffsetTable} (ht : tableOk t) (off : Nat) {rs qs : List Reg} (h : rs.Perm qs) :
    findLane t off rs = findLane t off qs :=
  Target.ext_mapped fun r l => by rw [ht.findLane_eq_mapped_iff, ht.findLane_eq_mapped_iff, h.mem_iff]

/-- An address decodes to a lane exactly when it is the lane's own (R72). -/
theorem tableOk.decodeAddr_eq_mapped_iff {t : OffsetTable} (ht : tableOk t) {a : Nat} {r : Reg} {l : Lane} :
    decodeAddr t a = .mapped r l ↔ a = laneAddr t r l :=
  ⟨eq_laneAddr_of_decodeAddr, fun h => h ▸ ht.decodeAddr_laneAddr r l⟩

/-- An address of any size is unmapped exactly when it is no lane's (R72). -/
theorem tableOk.decodeAddr_eq_unmapped_iff {t : OffsetTable} (ht : tableOk t) {a : Nat} :
    decodeAddr t a = .unmapped ↔ ∀ (r : Reg) (l : Lane), a ≠ laneAddr t r l := by
  simp only [Ne, ← ht.decodeAddr_eq_mapped_iff]
  cases decodeAddr t a with
  | mapped r l => exact iff_of_false nofun fun h => h r l rfl
  | unmapped => exact iff_of_true rfl nofun

/-- Distinct registers have distinct bases (R15 (c)). -/
theorem tableOk.get_injective {t : OffsetTable} (ht : tableOk t) : Function.Injective t.get :=
  fun _ _ h => (ht.lane_inj (l := .lo) (k := .lo) (congrArg (· + Lane.lo.offset) h)).1

/-- The search by slot finds exactly the register of the list whose base is twice the slot (R15 (c)). -/
theorem tableOk.findSlot_eq_some_iff {t : OffsetTable} (ht : tableOk t) {slot : Nat} {rs : List Reg} {r : Reg} :
    findSlot t slot rs = some r ↔ t.get r = 2 * slot ∧ r ∈ rs := by
  induction rs with
  | nil => simp [findSlot]
  | cons q qs ih =>
    rw [findSlot, List.mem_cons]
    split
    · next hq =>
      rw [Option.some_inj]
      constructor
      · rintro rfl
        exact ⟨hq, .inl rfl⟩
      · rintro ⟨hr, -⟩
        exact ht.get_injective (hq.trans hr.symm)
    · next hq =>
      have hne : t.get r = 2 * slot → r ≠ q := fun hr hrq => hq (hrq ▸ hr)
      rw [ih, and_congr_right fun hr => (or_iff_right (hne hr)).symm]

/-- The tag is the address above its low 7 bits (R71). -/
theorem addrTag_eq_iff (a : BitVec 32) : addrTag a = 0x0080000 ↔ a.toNat / 2 ^ 7 = 0x0080000 := by
  have ha := a.isLt
  simp only [addrTag, ← BitVec.toNat_inj, BitVec.extractLsb_toNat, BitVec.ofNat_eq_ofNat,
    BitVec.toNat_ofNat, Nat.shiftRight_eq_div_pow]
  omega

/-- The slot is bits 6:1 of the address (R71). -/
theorem toNat_addrSlot (a : BitVec 32) : (addrSlot a).toNat = a.toNat / 2 % 2 ^ 6 := by
  simp [addrSlot, Nat.shiftRight_eq_div_pow]

/-- The lane is chosen by bit 0 of the address (R71). -/
theorem addrLane_eq_iff (a : BitVec 32) (l : Lane) : addrLane a = l ↔ a.toNat % 2 = l.offset := by
  rw [addrLane, BitVec.getLsbD, Nat.testBit_zero]
  obtain h | h := Nat.mod_two_eq_zero_or_one a.toNat <;> cases l <;> simp [h, Lane.offset]

/-- The field view names a lane exactly when the three fields do: the tag, the slot and the lane bit (R71). -/
theorem decodeByFields_eq_mapped_iff (t : OffsetTable) (a : BitVec 32) (r : Reg) (l : Lane) :
    decodeByFields t a = .mapped r l ↔
      addrTag a = 0x0080000 ∧ findSlot t (addrSlot a).toNat Reg.all = some r ∧ addrLane a = l := by
  unfold decodeByFields
  split
  · next htag =>
    rw [and_iff_right htag]
    cases findSlot t (addrSlot a).toNat Reg.all with
    | none => simp
    | some q => simp
  · next htag => exact iff_of_false nofun fun h => htag h.1

/-- The field view names a lane exactly at the lane's own address: its base is even and below `2 ^ 7` (R15 (a), (d)), so
base and lane fill bits 6:0 without a carry into the tag. -/
theorem tableOk.decodeByFields_eq_mapped_iff {t : OffsetTable} (ht : tableOk t) (a : BitVec 32) (r : Reg) (l : Lane) :
    decodeByFields t a = .mapped r l ↔ a.toNat = laneAddr t r l := by
  have hin := ht.lane_le r l
  have hlane := laneOffset_le_one l
  have ⟨heven, _⟩ := ht
  have hbase := heven r r.mem_all
  rw [Machine.decodeByFields_eq_mapped_iff, addrTag_eq_iff, ht.findSlot_eq_some_iff, and_iff_left r.mem_all,
    toNat_addrSlot, addrLane_eq_iff, laneAddr, show ioBase = 0x0080000 * 2 ^ 7 from rfl]
  omega

end Sys2Proof.Machine

namespace Sys2Proof.Proofs

open Sys2Proof.Machine

/-- Settles O9: the decoder is the inverse of the lane addresses, and the search finds the same lane in every order. -/
theorem decodeFindsExactlyTheLanes : Obligations.DecodeFindsExactlyTheLanes := by
  refine ⟨fun t ht a r => ⟨ht.decodeAddr_eq_mapped_iff, ht.decodeAddr_eq_mapped_iff⟩, fun t ht a => ?_,
    fun t a h => decodeAddr_outside t h, fun t ht off rs h => ht.findLane_perm off h⟩
  rw [ht.decodeAddr_eq_unmapped_iff]
  exact forall_congr' fun r => ⟨fun h => ⟨h .lo, h .hi⟩, fun
    | ⟨hlo, _⟩, .lo => hlo
    | ⟨_, hhi⟩, .hi => hhi⟩

/-- Settles O10: both views name a lane exactly at the lane's own address. -/
theorem decodeByFieldsAgrees : Obligations.DecodeByFieldsAgrees := fun _ ht a =>
  Target.ext_mapped fun r l => (ht.decodeByFields_eq_mapped_iff a r l).trans ht.decodeAddr_eq_mapped_iff.symm

end Sys2Proof.Proofs
end

section
/-! A sequence of operations has an effect of its own: the bank it leaves and the records it adds, as a function of the
configuration and the bank. Reads leave the bank, so they add their own records and nothing else
(spec/40_bus_byte_access.md R97). -/

namespace Sys2Proof.Machine

/-- What a sequence leaves and records. -/
def effects : List Instr → Config → Bank → Bank × List Output
  | [], _, b => (b, [])
  | i :: is, c, b =>
    ((effects is c (effect i c b).1).1, (effect i c b).2 :: (effects is c (effect i c b).1).2)

/-- Every sequence completes with its effect, and nothing else of the state enters or changes. -/
theorem runOps_eq_effects (is : List Instr) (s : State) :
    runOps is s = .next { s with
      bank := (effects is s.cfg s.bank).1, outputs := s.outputs ++ (effects is s.cfg s.bank).2 } := by
  induction is generalizing s with
  | nil => simp [runOps, effects]
  | cons i is ih => simp [runOps, exec_eq_effect, ih, effects, State.finish]

/-- The second part of a sequence starts from the bank the first part leaves. -/
theorem effects_append (is js : List Instr) (c : Config) (b : Bank) :
    effects (is ++ js) c b =
      ((effects js c (effects is c b).1).1, (effects is c b).2 ++ (effects js c (effects is c b).1).2) := by
  induction is generalizing b with
  | nil => rfl
  | cons i is ih => simp only [List.cons_append, effects, ih]

/-- One record for each operation (R5). -/
theorem length_effects (is : List Instr) (c : Config) (b : Bank) : (effects is c b).2.length = is.length := by
  induction is generalizing b with
  | nil => rfl
  | cons i is ih => rw [effects, List.length_cons, ih, List.length_cons]

/-- A sequence of reads leaves the bank as it is (R45 (d)). -/
theorem effects_bank_of_reads {is : List Instr} (h : ∀ i ∈ is, isRead i = true) (c : Config) (b : Bank) :
    (effects is c b).1 = b := by
  induction is with
  | nil => rfl
  | cons i is ih =>
    obtain ⟨hi, his⟩ := List.forall_mem_cons.1 h
    rw [effects, effect_bank_of_isRead hi]
    exact ih his

end Sys2Proof.Machine

namespace Sys2Proof.Proofs

open Sys2Proof.Machine

/-- Settles O39: the reads leave the bank that `before` left, so `after` has the same effect with and without them. -/
theorem insertedReadsChangeNothingElse : Obligations.InsertedReadsChangeNothingElse := by
  intro before reads after s hreads
  have hbank := effects_bank_of_reads hreads s.cfg (effects before s.cfg s.bank).1
  refine ⟨_, _, (effects before s.cfg s.bank).2, (effects reads s.cfg (effects before s.cfg s.bank).1).2,
    (effects after s.cfg (effects before s.cfg s.bank).1).2, runOps_eq_effects _ s, runOps_eq_effects _ s, ?_,
    length_effects _ _ _, length_effects _ _ _, ?_, ?_⟩
  · simp only [effects_append, hbank]
  · simp only [effects_append, List.append_assoc]
  · simp only [effects_append, hbank, List.append_assoc]

end Sys2Proof.Proofs
end

section
/-! `RDB` and `WRB` by what their address decodes to, and the statements about one byte access
(spec/40_bus_byte_access.md R90, R91, R95, R96). -/

namespace Sys2Proof.Machine

/-- A read at a mapped address records the lane's byte and leaves the bank (R90). -/
theorem exec_rdb_mapped {s : State} {a : Nat} {r : Reg} {l : Lane} (h : decodeAddr s.cfg.offsets a = .mapped r l) :
    exec (.rdb a) s = .next (s.finish s.bank ⟨some (.byte (laneOf (s.bank.get r) l)), none⟩) := by
  rw [exec_eq_effect, effect_of_access rfl, accessEffect, readByte_mapped _ h]

/-- A read at an unmapped address records `0x00` and the gated notice (R141). -/
theorem exec_rdb_unmapped {s : State} {a : Nat} (h : decodeAddr s.cfg.offsets a = .unmapped) :
    exec (.rdb a) s = .next (s.finish s.bank ⟨some (.byte 0x00), unmappedNotice s.cfg .read a⟩) := by
  rw [exec_eq_effect, effect_of_access rfl, accessEffect, readByte_unmapped _ h, unmappedReadValue]

/-- A write at a mapped address replaces the lane, with no notice (R91). -/
theorem exec_wrb_mapped {s : State} {a : Nat} {r : Reg} {l : Lane} (h : decodeAddr s.cfg.offsets a = .mapped r l)
    (v : Nat) :
    exec (.wrb a v) s =
      .next (s.finish (s.bank.set r (setLane (s.bank.get r) l (maskByte v))) ⟨none, none⟩) := by
  rw [exec_eq_effect, effect_of_access rfl, accessEffect, writeByte_mapped _ _ h]

/-- A write at an unmapped address leaves the bank and records the gated notice (R142). -/
theorem exec_wrb_unmapped {s : State} {a : Nat} (h : decodeAddr s.cfg.offsets a = .unmapped) (v : Nat) :
    exec (.wrb a v) s = .next (s.finish s.bank ⟨none, unmappedNotice s.cfg .write a⟩) := by
  rw [exec_eq_effect, effect_of_access rfl, accessEffect, writeByte_unmapped _ _ h]

end Sys2Proof.Machine

namespace Sys2Proof.Proofs

open Sys2Proof.Machine

/-- Settles O14: by what the address decodes to. -/
theorem readByteCompletes : Obligations.ReadByteCompletes := by
  refine fun s a => ⟨fun r h => ?_, fun r h => ?_, fun h => exec_rdb_unmapped h⟩
  · rw [exec_rdb_mapped h, laneOf_lo]
    rfl
  · rw [exec_rdb_mapped h, laneOf_hi]
    rfl

/-- Settles O15: by what the address decodes to; the bank is the old one with one register set. -/
theorem writeByteCompletes : Obligations.WriteByteCompletes := by
  refine fun s a v => ⟨fun r h => ?_, fun r h => ?_, fun h => exec_wrb_unmapped h v⟩
  · refine ⟨_, exec_wrb_mapped h v, ?_, fun q hq => PerReg.get_set_other _ _ hq⟩
    rw [PerReg.get_set_same, setLane_lo, maskByte]
  · refine ⟨_, exec_wrb_mapped h v, ?_, fun q hq => PerReg.get_set_other _ _ hq⟩
    rw [PerReg.get_set_same, setLane_hi, maskByte]

/-- Settles O18: a register a write changes is one its address decodes to. -/
theorem writeLeavesOtherRegisters : Obligations.WriteLeavesOtherRegisters := by
  intro s a v r hne
  refine ⟨_, exec_eq_effect (.wrb a v) s, ?_⟩
  by_contra hchanged
  obtain ⟨l, hl, -⟩ := writeByte_changes hchanged
  exact hne l hl

/-- Settles O19: the two rules of an unmapped access. -/
theorem unmappedAccessChangesNothing : Obligations.UnmappedAccessChangesNothing := fun _ _ h =>
  ⟨⟨_, _, exec_rdb_unmapped h, rfl, rfl⟩, fun v => ⟨_, exec_wrb_unmapped h v, rfl⟩⟩

/-- Settles O34: the lanes are those of the effect; a byte of the bus is a lane, or the `0x00` of an unmapped address. -/
theorem everyLaneAfterEveryOperation : Obligations.EveryLaneAfterEveryOperation := by
  intro i s
  refine ⟨_, exec_eq_effect i s, rfl, rfl, laneOf_effect i s.cfg s.bank, fun a hkept => ?_⟩
  rw [State.busByte, State.busByte, State.finish_cfg, State.finish_bank]
  cases hd : decodeAddr s.cfg.offsets a with
  | mapped r l => rw [readByte_mapped _ hd, readByte_mapped _ hd, laneOf_effect, hkept r l hd, Option.getD_none]
  | unmapped => rw [readByte_unmapped _ hd, readByte_unmapped _ hd]

end Sys2Proof.Proofs
end

section
/-! Byte writes to the lanes of one register under a table that meets R15, with reads between and after them
(spec/40_bus_byte_access.md R93, R94, spec/42_system_ops.md R131, spec/70_reset_and_hazards.md R164). -/

namespace Sys2Proof

/-- Of two replacements of one entry the second stands. -/
@[simp] theorem PerReg.set_set {α : Type} (p : PerReg α) (r : Reg) (v w : α) : (p.set r v).set r w = p.set r w := by
  cases r <;> rfl

end Sys2Proof

namespace Sys2Proof.Machine

/-- Both lanes replaced, the high one first, nothing of the old value is left. -/
theorem setLane_hi_lo (x : Half) (lo hi : Byte) : setLane (setLane x .hi hi) .lo lo = hi ++ lo := by
  rw [setLane_lo, setLane_hi, slice_hi_append]

/-- A `SETVCOUNT` operand is its two bytes put together (R76). -/
theorem maskHalf_eq_append (v : Nat) : maskHalf v = maskByte (v / 2 ^ 8) ++ maskByte v := by
  rw [← slices_append (maskHalf v), ← laneOf_lo, ← laneOf_hi, laneOf_maskHalf_lo, laneOf_maskHalf_hi, maskByte,
    maskByte]

/-- Masking looks at the low 8 bits alone (R74). -/
@[simp] theorem maskByte_mod (v : Nat) : maskByte (v % 2 ^ 8) = maskByte v :=
  BitVec.eq_of_toNat_eq (by simp [maskByte])

/-- A byte write at a lane's address, from any state with the configuration that gives the address. -/
theorem exec_wrb_laneAddr_of_cfg {s u : State} (ht : tableOk s.cfg.offsets) (hu : u.cfg = s.cfg) (r : Reg) (l : Lane)
    (v : Nat) :
    exec (.wrb (laneAddr s.cfg.offsets r l) v) u =
      .next (u.finish (u.bank.set r (setLane (u.bank.get r) l (maskByte v))) ⟨none, none⟩) := by
  rw [← hu] at ht ⊢
  exact exec_wrb_laneAddr ht r l v

/-- Two byte writes to lanes of one register leave the bank with that register's lanes replaced one after the other. -/
theorem runOps_wrb_wrb_laneAddr {s : State} (ht : tableOk s.cfg.offsets) (r : Reg) (l k : Lane) (v w : Nat) :
    ∃ t, runOps [.wrb (laneAddr s.cfg.offsets r l) v, .wrb (laneAddr s.cfg.offsets r k) w] s = .next t ∧
      t.bank = s.bank.set r (setLane (setLane (s.bank.get r) l (maskByte v)) k (maskByte w)) := by
  have hsecond (b : Bank) (o : Output) := exec_wrb_laneAddr_of_cfg ht (s.finish_cfg b o) r k w
  exact ⟨_, by simp only [runOps, exec_wrb_laneAddr ht, hsecond]; rfl, by simp⟩

end Sys2Proof.Machine

namespace Sys2Proof.Proofs

open Sys2Proof.Machine Sys2Proof.Claims

/-- A byte written to a lane is read back there, and the getter then returns the register with that lane replaced. -/
theorem wrb_then_rdb_and_getOp {s : State} (ht : tableOk s.cfg.offsets) (r : Reg) (l : Lane) (v : Nat) :
    ∃ t u w,
      exec (.wrb (laneAddr s.cfg.offsets r l) v) s = .next t ∧
      exec (.rdb (laneAddr s.cfg.offsets r l)) t = .next u ∧
      u.outputs = t.outputs ++ [quiet (some (.byte (BitVec.ofNat 8 v)))] ∧
      exec r.getOp t = .next w ∧
      w.outputs = t.outputs ++ [quiet (some (.half (setLane (s.bank.get r) l (maskByte v))))] := by
  have hd := ht.decodeAddr_laneAddr r l
  refine ⟨_, _, _, exec_wrb_mapped hd v, exec_rdb_mapped hd, ?_, exec_getOp r _, ?_⟩
  · simp [quiet, maskByte]
  · simp [quiet]

/-- The getter between two byte writes to one register returns it with the first lane replaced, and after both with the
two lanes replaced one after the other (R164). -/
theorem getOp_between_and_after_wrb_wrb {s : State} (ht : tableOk s.cfg.offsets) (r : Reg) (l k : Lane) (a b : Byte) :
    ∃ t u w x,
      exec (.wrb (laneAddr s.cfg.offsets r l) a.toNat) s = .next t ∧
      exec r.getOp t = .next u ∧
      u.outputs = t.outputs ++ [quiet (some (.half (setLane (s.bank.get r) l a)))] ∧
      exec (.wrb (laneAddr s.cfg.offsets r k) b.toNat) u = .next w ∧
      exec r.getOp w = .next x ∧
      x.outputs = w.outputs ++ [quiet (some (.half (setLane (setLane (s.bank.get r) l a) k b)))] := by
  refine ⟨_, _, _, _, exec_wrb_laneAddr ht r l _, exec_getOp r _, ?_, exec_wrb_laneAddr_of_cfg ht (by rfl) r k _,
    exec_getOp r _, ?_⟩
  · simp [quiet]
  · simp [quiet]

/-- Settles O16: the low-lane case; the high lane of what the getter returns is the one kept. -/
theorem lowLaneWriteThenRead : Obligations.LowLaneWriteThenRead := by
  intro s r v ht
  obtain ⟨t, u, w, hwrb, hrdb, hu, hget, hw⟩ := wrb_then_rdb_and_getOp ht r .lo v
  exact ⟨t, u, w, _, hwrb, hrdb, hu, hget, hw, by rw [setLane_lo, slice_hi_append]⟩

/-- Settles O17: the high-lane case, and the two writes in either order replace both lanes. -/
theorem highLaneWriteAndRoundTrip : Obligations.HighLaneWriteAndRoundTrip := by
  refine fun s r ht => ⟨fun v => ?_, fun lo hi => ⟨runOps_wrb_lo_hi ht r lo hi, ?_⟩⟩
  · obtain ⟨t, u, w, hwrb, hrdb, hu, hget, hw⟩ := wrb_then_rdb_and_getOp ht r .hi v
    exact ⟨t, u, w, _, hwrb, hrdb, hu, hget, hw, by rw [setLane_hi, slice_lo_append]⟩
  · obtain ⟨t, hrun, hbank⟩ := runOps_wrb_wrb_laneAddr ht r .hi .lo hi.toNat lo.toNat
    exact ⟨t, hrun, by rw [hbank, PerReg.get_set_same, setLane_hi_lo, maskByte_toNat, maskByte_toNat]⟩

/-- Settles O22: one lane replaced between the writes, both after them, in either order. -/
theorem tornValueBetweenTwoWrites : Obligations.TornValueBetweenTwoWrites := by
  intro s r h1 l1 ht
  have hlo := getOp_between_and_after_wrb_wrb ht r .lo .hi l1 h1
  have hhi := getOp_between_and_after_wrb_wrb ht r .hi .lo h1 l1
  rw [setLane_lo_hi, setLane_lo] at hlo
  rw [setLane_hi_lo, setLane_hi] at hhi
  exact ⟨hlo, hhi⟩

/-- Settles O32: either order of the two writes leaves `VCOUNT` at its operand's two bytes put together. -/
theorem setVcountEqualsTwoByteWrites : Obligations.SetVcountEqualsTwoByteWrites := by
  intro s v ht
  obtain ⟨u, hrunu, hu⟩ := runOps_wrb_wrb_laneAddr ht .vcount .lo .hi (v % 2 ^ 8) (v / 2 ^ 8 % 2 ^ 8)
  obtain ⟨w, hrunw, hw⟩ := runOps_wrb_wrb_laneAddr ht .vcount .hi .lo (v / 2 ^ 8 % 2 ^ 8) (v % 2 ^ 8)
  rw [setLane_lo_hi, maskByte_mod, maskByte_mod, ← maskHalf_eq_append] at hu
  rw [setLane_hi_lo, maskByte_mod, maskByte_mod, ← maskHalf_eq_append] at hw
  exact ⟨_, u, w, exec_eq_effect (.setvcount v) s, hrunu, hrunw, hu, hw⟩

end Sys2Proof.Proofs
end

section
/-! The `LANE` rows as byte accesses at their addresses (spec/30_encoding.md R73, R82). -/

namespace Sys2Proof.Machine

/-- The listed address of each row is its lane's address under the default table (R16, R73). -/
theorem laneRowAddr_eq_laneAddr (r : Reg) (l : Lane) : laneRowAddr r l = laneAddr defaultOffsets r l := by
  cases r <;> cases l <;> rfl

/-- Under the default table each row's address decodes to the lane the row names. -/
theorem decodeAddr_defaultOffsets_laneAddr (r : Reg) (l : Lane) :
    decodeAddr defaultOffsets (laneAddr defaultOffsets r l) = .mapped r l :=
  tableOk.decodeAddr_laneAddr (by decide) r l

/-- A row's read is the `RDB` at its lane's default address (log entry 3). -/
theorem exec_laneOp_read (r : Reg) (l : Lane) (s : State) :
    exec (laneOp r l .read) s = exec (.rdb (laneAddr defaultOffsets r l)) s := by
  rw [exec_by_kind, laneOp_kind, ← laneRowAddr_eq_laneAddr]
  rfl

/-- A row's write is the `WRB` at its lane's default address (log entry 3). -/
theorem exec_laneOp_write (r : Reg) (l : Lane) (v : Nat) (s : State) :
    exec (laneOp r l (.write v)) s = exec (.wrb (laneAddr defaultOffsets r l) v) s := by
  rw [exec_by_kind, laneOp_kind, ← laneRowAddr_eq_laneAddr]
  rfl

end Sys2Proof.Machine

namespace Sys2Proof.Proofs

open Sys2Proof.Machine

/-- Settles O23: one rule for the reads and one for the writes. -/
theorem laneRowsAreBusAccesses : Obligations.LaneRowsAreBusAccesses := fun s r l =>
  ⟨exec_laneOp_read r l s, fun v => exec_laneOp_write r l v s⟩

/-- Settles O24: a row's read is an `RDB` at an address that decodes to the row's lane. -/
theorem laneRowReadsCompleteOnTheirRegister : Obligations.LaneRowReadsCompleteOnTheirRegister := by
  intro s r hs
  have hd (l : Lane) : decodeAddr s.cfg.offsets (laneAddr defaultOffsets r l) = .mapped r l :=
    hs ▸ decodeAddr_defaultOffsets_laneAddr r l
  obtain ⟨hlo, -⟩ := readByteCompletes s (laneAddr defaultOffsets r .lo)
  obtain ⟨-, hhi, -⟩ := readByteCompletes s (laneAddr defaultOffsets r .hi)
  rw [exec_laneOp_read, exec_laneOp_read]
  exact ⟨hlo r (hd .lo), hhi r (hd .hi)⟩

/-- Settles O25: a row's write is a `WRB` at an address that decodes to the row's lane. -/
theorem laneRowWritesCompleteOnTheirRegister : Obligations.LaneRowWritesCompleteOnTheirRegister := by
  intro s r v hs
  have hd (l : Lane) : decodeAddr s.cfg.offsets (laneAddr defaultOffsets r l) = .mapped r l :=
    hs ▸ decodeAddr_defaultOffsets_laneAddr r l
  obtain ⟨hlo, -⟩ := writeByteCompletes s (laneAddr defaultOffsets r .lo) v
  obtain ⟨-, hhi, -⟩ := writeByteCompletes s (laneAddr defaultOffsets r .hi) v
  rw [exec_laneOp_write, exec_laneOp_write]
  exact ⟨hlo r (hd .lo), hhi r (hd .hi)⟩

end Sys2Proof.Proofs
end

section
/-! The whole-register getters (spec/41_whole_register_getters.md): one law for the getter of every register, which
covers the four families, and the value as the register's two bytes (R100, R54). -/

namespace Sys2Proof

/-- Each register's number finds the register (R11). -/
@[simp] theorem Reg.ofId?_id (r : Reg) : Reg.ofId? r.id = some r := by
  cases r <;> rfl

/-- Each register's number fits the address field of the transaction word (R77). -/
theorem Reg.id_lt (r : Reg) : r.id < 2 ^ 32 := by
  cases r <;> decide

/-- A word with `op` 3 and a register's number in its address field is that register's getter (R77). -/
theorem decodeWord_getOp {w : BitVec 52} {r : Reg} (hop : wordOp w = 3) (haddr : wordAddr w = r.id) :
    decodeWord w = .operation r.getOp := by
  simp only [decodeWord, hop, haddr, Reg.ofId?_id]

/-- The word of a getter may carry anything in its data field (R77). -/
theorem decodeWord_opWord_getOp (r : Reg) {d : Nat} (hd : d < 2 ^ 16) :
    decodeWord (opWord 3 r.id d) = .operation r.getOp :=
  decodeWord_getOp (wordOp_opWord (by decide) r.id_lt hd) (wordAddr_opWord (by decide) r.id_lt hd)

/-- A transaction word is the number its three fields add up to (R77). -/
theorem opWord_eq_ofNat {op addr data : Nat} (ho : op < 2 ^ 4) (ha : addr < 2 ^ 32) (hd : data < 2 ^ 16) :
    opWord op addr data = BitVec.ofNat 52 (op * 2 ^ 48 + addr * 2 ^ 16 + data) := by
  rw [← opWord_toNat ho ha hd, BitVec.ofNat_toNat, BitVec.setWidth_eq]

end Sys2Proof

namespace Sys2Proof.Machine

/-- A register is assembled from its own two lanes (R54). -/
theorem assemble_laneOf (x : Half) : assemble (laneOf x .hi) (laneOf x .lo) = x := by
  rw [assemble_eq_append, laneOf_hi, laneOf_lo, slices_append]

end Sys2Proof.Machine

namespace Sys2Proof.Proofs

open Sys2Proof.Machine Sys2Proof.Claims

/-- Every register holds its power-on value in the reset bank (R14). -/
theorem get_powerOnBank (r : Reg) : powerOnBank.get r = powerOn r := by
  cases r <;> rfl

/-- The law of the getters, for every register at once. -/
theorem getterLaw_getOp (r : Reg) : GetterLaw r.getOp r.id (fun b => b.get r) (powerOn r) := by
  refine ⟨exec_getOp r, fun s => ⟨_, _, exec_eq_effect .reset s, exec_getOp r _, ?_⟩, fun d hd => ?_⟩
  · rw [State.finish_outputs, State.finish_bank, ← get_powerOnBank]
    rfl
  · have hw : opWord 3 r.id d = BitVec.ofNat 52 (0x3000000000000 + r.id * 0x10000 + d) :=
      opWord_eq_ofNat (by decide) r.id_lt hd
    rw [← hw, decodeWord_opWord_getOp r hd]

/-- Settles O30: the two reads at the register's lane addresses record its two lanes. -/
theorem getterEqualsItsTwoBytes : Obligations.GetterEqualsItsTwoBytes := by
  refine ⟨fun s r => exec_getOp r s, fun s r ht => ?_⟩
  exact ⟨_, _, _, _, exec_rdb_laneAddr ht r .hi, rfl, exec_rdb_laneAddr ht r .lo, rfl,
    (assemble_laneOf (s.bank.get r)).symm⟩

/-- Settles O26: the law at the seven control registers. -/
theorem gettersOfControlRegisters : Obligations.GettersOfControlRegisters :=
  ⟨getterLaw_getOp .dispcnt, getterLaw_getOp .dispstat, getterLaw_getOp .vcount, getterLaw_getOp .bg0cnt,
    getterLaw_getOp .bg1cnt, getterLaw_getOp .bg2cnt, getterLaw_getOp .bg3cnt⟩

/-- Settles O27: the law at the eight scroll offsets. -/
theorem gettersOfScrollRegisters : Obligations.GettersOfScrollRegisters :=
  ⟨getterLaw_getOp .bg0hofs, getterLaw_getOp .bg0vofs, getterLaw_getOp .bg1hofs, getterLaw_getOp .bg1vofs,
    getterLaw_getOp .bg2hofs, getterLaw_getOp .bg2vofs, getterLaw_getOp .bg3hofs, getterLaw_getOp .bg3vofs⟩

/-- Settles O28: the law at the six window registers. -/
theorem gettersOfWindowRegisters : Obligations.GettersOfWindowRegisters :=
  ⟨getterLaw_getOp .win0h, getterLaw_getOp .win1h, getterLaw_getOp .win0v, getterLaw_getOp .win1v,
    getterLaw_getOp .winin, getterLaw_getOp .winout⟩

/-- Settles O29: the law at `MOSAIC` and the three blend registers. -/
theorem gettersOfMosaicAndBlendRegisters : Obligations.GettersOfMosaicAndBlendRegisters :=
  ⟨getterLaw_getOp .mosaic, getterLaw_getOp .bldcnt, getterLaw_getOp .bldalpha, getterLaw_getOp .bldy⟩

end Sys2Proof.Proofs
end

section
/-! Repeated accesses, `RESET` and construction (spec/20_memory.md R58, spec/42_system_ops.md R130, R132). -/

namespace Sys2Proof.Machine

/-- Of two byte writes to one address only the second shows in the bank (R91, R142). -/
theorem writeByte_writeByte_bank (c : Config) (b : Bank) (a v w : Nat) :
    (writeByte c (writeByte c b a v).1 a w).1 = (writeByte c b a w).1 := by
  refine bank_ext_lanes fun r l => ?_
  rw [laneOf_writeByte, laneOf_writeByte, laneOf_writeByte]
  by_cases h : decodeAddr c.offsets a = .mapped r l
  · rw [if_pos h, if_pos h]
  · rw [if_neg h, if_neg h, if_neg h]

/-- A configuration that meets R4 and R15 is accepted (R132). -/
theorem State.construct?_of_configOk {c : Config} (h : configOk c) :
    State.construct? c = some (State.construct c) := if_pos h

/-- Every other configuration is turned down. -/
theorem State.construct?_of_not_configOk {c : Config} (h : ¬ configOk c) : State.construct? c = none := if_neg h

end Sys2Proof.Machine

namespace Sys2Proof.Proofs

open Sys2Proof.Machine

/-- Settles O21: the second write overwrites the first one's lane with the same byte; a read leaves the configuration
and the bank, which give its record; `RESET` leaves one bank. -/
theorem repeatedAccessIsIdempotent : Obligations.RepeatedAccessIsIdempotent := by
  refine ⟨fun s a v => ?_, fun s a => ?_, fun s => ?_⟩
  · exact ⟨_, _, exec_eq_effect (.wrb a v) s, exec_eq_effect (.wrb a v) _, writeByte_writeByte_bank s.cfg s.bank a v v⟩
  · exact ⟨_, _, exec_eq_effect (.rdb a) s, rfl, exec_eq_effect (.rdb a) _⟩
  · exact ⟨_, _, exec_eq_effect .reset s, exec_eq_effect .reset _, rfl⟩

/-- Settles O2: the bank is the power-on bank. -/
theorem resetIgnoresThePriorState : Obligations.ResetIgnoresThePriorState :=
  ⟨powerOnBank, exec_eq_effect .reset, laneOf_powerOnBank, State.construct_bank⟩

/-- Settles O3: an accepted configuration gives the constructed state. -/
theorem constructionChecksTheConfiguration : Obligations.ConstructionChecksTheConfiguration := fun c =>
  ⟨fun hc => ⟨State.construct c, State.construct?_of_configOk hc, State.construct_cfg c, StateOk.construct hc,
    get_powerOnBank, State.construct_inbox c, State.construct_outputs c⟩, State.construct?_of_not_configOk⟩

end Sys2Proof.Proofs
end

section
/-! The one error class of the block (spec/60_exceptions.md): when an operation emits a notice, and that every operation
completes all the same (R140, R144, R146, R147, R155). -/

namespace Sys2Proof.Machine

/-- The notice of a bus access is there exactly at an unmapped address under an enabled gate, and names the kind and the
whole address (R140, R143, R144). -/
theorem accessEffect_notice_eq_some_iff (c : Config) (b : Bank) (a : Nat) (acc : BusAccess) (n : Diag) :
    (accessEffect c b a acc).2.notice = some n ↔
      decodeAddr c.offsets a = .unmapped ∧ c.diagEnable = true ∧ n = ⟨accessKind acc, a⟩ := by
  rw [accessEffect_notice, ← unmappedNotice_eq_some_iff]
  by_cases h : decodeAddr c.offsets a = .unmapped <;> simp [h]

/-- The notice of an operation is that of its bus access, and none where it has none (R146, R155). -/
theorem effect_notice_eq_some_iff (i : Instr) (c : Config) (b : Bank) (n : Diag) :
    (effect i c b).2.notice = some n ↔
      ∃ a acc, busAccessOf i = some (a, acc) ∧ (accessEffect c b a acc).2.notice = some n := by
  cases ha : busAccessOf i with
  | none => simp [effect_notice_of_no_access ha]
  | some access =>
    obtain ⟨a, acc⟩ := access
    rw [effect_of_access ha]
    simp

end Sys2Proof.Machine

namespace Sys2Proof.Proofs

open Sys2Proof.Machine

/-- Settles O8: an operation completes with its effect, and a step that takes one is that operation; an unmapped access
leaves the bank, and its read records `0x00`. -/
theorem everyOperationCompletes : Obligations.EveryOperationCompletes := by
  refine ⟨fun i s => ⟨_, exec_eq_effect i s⟩, fun s p rest i hs hp => ?_, fun s a h => ⟨?_, fun v => ?_⟩⟩
  · exact ⟨_, (step_run hs hp).trans (exec_eq_effect i (s.withInbox rest))⟩
  · exact ⟨_, _, exec_rdb_unmapped h, rfl, rfl⟩
  · exact ⟨_, exec_wrb_unmapped h v, rfl⟩

/-- Settles O35: the record added is that of the effect, whose notice is that of the operation's bus access. -/
theorem noticeExactlyOnUnmappedAccess : Obligations.NoticeExactlyOnUnmappedAccess := by
  intro i s
  refine ⟨_, _, exec_eq_effect i s, rfl, fun n => ?_⟩
  simp only [effect_notice_eq_some_iff, accessEffect_notice_eq_some_iff]

end Sys2Proof.Proofs
end

section
/-! The registers after reset (spec/70_reset_and_hazards.md): the power-on values of R14, at construction and after
`RESET` from every state (R161). -/

namespace Sys2Proof.Proofs

open Sys2Proof.Machine

/-- Settles O1: construction and `RESET` both give the power-on bank, whose registers `get_powerOnBank` lists. -/
theorem resetLeavesPowerOnValues : Obligations.ResetLeavesPowerOnValues :=
  ⟨get_powerOnBank, fun s => ⟨_, exec_eq_effect .reset s, get_powerOnBank⟩⟩

end Sys2Proof.Proofs
end

section
/-! The notice gate enters the notices alone (spec/60_exceptions.md R144, decision D9): the bank and the read values
depend on the configuration through the offset table only, over one operation and over any sequence. -/

namespace Sys2Proof.Machine

/-- A bus access leaves the same bank and reads the same value under configurations with one offset table. -/
theorem accessEffect_of_offsets_eq {c d : Config} (h : c.offsets = d.offsets) (b : Bank) (a : Nat) (acc : BusAccess) :
    (accessEffect c b a acc).1 = (accessEffect d b a acc).1 ∧
      (accessEffect c b a acc).2.value = (accessEffect d b a acc).2.value := by
  cases hd : decodeAddr d.offsets a with
  | mapped r l =>
    have hc : decodeAddr c.offsets a = .mapped r l := h ▸ hd
    cases acc with
    | read => simp [accessEffect, readByte_mapped b hc, readByte_mapped b hd]
    | write v => simp [accessEffect, writeByte_mapped b v hc, writeByte_mapped b v hd]
  | unmapped =>
    have hc : decodeAddr c.offsets a = .unmapped := h ▸ hd
    cases acc with
    | read => simp [accessEffect, readByte_unmapped b hc, readByte_unmapped b hd]
    | write v => simp [accessEffect, writeByte_unmapped b v hc, writeByte_unmapped b v hd]

/-- So does every operation. -/
theorem effect_of_offsets_eq {c d : Config} (h : c.offsets = d.offsets) (i : Instr) (b : Bank) :
    (effect i c b).1 = (effect i d b).1 ∧ (effect i c b).2.value = (effect i d b).2.value := by
  unfold effect
  cases i.kind with
  | rdb a => exact accessEffect_of_offsets_eq h b a .read
  | wrb a v => exact accessEffect_of_offsets_eq h b a (.write v)
  | lane r l acc => exact accessEffect_of_offsets_eq h b (laneRowAddr r l) acc
  | reset => exact ⟨rfl, rfl⟩
  | setvcount v => exact ⟨rfl, rfl⟩
  | get r => exact ⟨rfl, rfl⟩

/-- So does every sequence, record by record. -/
theorem effects_of_offsets_eq {c d : Config} (h : c.offsets = d.offsets) (is : List Instr) (b : Bank) :
    (effects is c b).1 = (effects is d b).1 ∧
      (effects is c b).2.map (fun o => o.value) = (effects is d b).2.map (fun o => o.value) := by
  induction is generalizing b with
  | nil => exact ⟨rfl, rfl⟩
  | cons i is ih =>
    obtain ⟨hbank, hvalue⟩ := effect_of_offsets_eq h i b
    simp only [effects, List.map_cons, hbank, hvalue]
    obtain ⟨ihbank, ihvalues⟩ := ih (effect i d b).1
    exact ⟨ihbank, by rw [ihvalues]⟩

/-- With the gate clear no operation emits a notice (R144). -/
theorem effect_notice_of_gate_clear {c : Config} (h : c.diagEnable = false) (i : Instr) (b : Bank) :
    (effect i c b).2.notice = none := by
  refine Option.eq_none_iff_forall_ne_some.2 fun d hd => ?_
  obtain ⟨hgate, -⟩ := outputOk_effect i c b d hd
  rw [h] at hgate
  cases hgate

/-- Nor does any operation of a sequence. -/
theorem effects_notice_of_gate_clear {c : Config} (h : c.diagEnable = false) (is : List Instr) (b : Bank) :
    ∀ o ∈ (effects is c b).2, o.notice = none := by
  induction is generalizing b with
  | nil => exact nofun
  | cons i is ih => exact List.forall_mem_cons.2 ⟨effect_notice_of_gate_clear h i b, ih _⟩

end Sys2Proof.Machine

namespace Sys2Proof.Proofs

open Sys2Proof.Machine

/-- Settles O40: the two configurations share the offset table, so the two runs share the bank and the values; the clear
gate silences every notice. -/
theorem noticeGateChangesOnlyNotices : Obligations.NoticeGateChangesOnlyNotices := by
  intro is s
  obtain ⟨hbank, hvalues⟩ := effects_of_offsets_eq (c := { s.cfg with diagEnable := true })
    (d := { s.cfg with diagEnable := false }) rfl is s.bank
  exact ⟨_, _, _, _, runOps_eq_effects is _, runOps_eq_effects is _, hbank, rfl, rfl, hvalues,
    effects_notice_of_gate_clear rfl is s.bank⟩

end Sys2Proof.Proofs
end

section
/-! The decoder of the transaction word, one rule per value of its `op` field (spec/30_encoding.md R77, R78 (c); decisions
D5 and D15). The rule of `GET` with a register's number is `decodeWord_getOp`. -/

namespace Sys2Proof

theorem decodeWord_reset {w : BitVec 52} (h : wordOp w = 0) : decodeWord w = .operation .reset := by
  simp only [decodeWord, h]

theorem decodeWord_rdb {w : BitVec 52} (h : wordOp w = 1) : decodeWord w = .operation (.rdb (wordAddr w)) := by
  simp only [decodeWord, h]

theorem decodeWord_wrb {w : BitVec 52} (h : wordOp w = 2) :
    decodeWord w = .operation (.wrb (wordAddr w) (wordData w)) := by
  simp only [decodeWord, h]

theorem decodeWord_setvcount {w : BitVec 52} (h : wordOp w = 4) :
    decodeWord w = .operation (.setvcount (wordData w)) := by
  simp only [decodeWord, h]

/-- There are 25 registers, so a `regid` above 24 numbers none (R11). -/
theorem Reg.ofId?_eq_none {n : Nat} (h : 24 < n) : Reg.ofId? n = none := by
  rw [Reg.ofId?, List.getElem?_eq_none_iff]
  exact h

/-- `GET` of a number above 24 is refused (R78 (c)). -/
theorem decodeWord_noSuchRegister {w : BitVec 52} (hop : wordOp w = 3) (haddr : 24 < wordAddr w) :
    decodeWord w = .invalid (.noSuchRegister (wordAddr w)) := by
  simp only [decodeWord, hop, Reg.ofId?_eq_none haddr]

/-- An `op` of 5 to 15 is refused (R78 (c)). -/
theorem decodeWord_reservedOp {w : BitVec 52} (h : 4 < wordOp w) :
    decodeWord w = .invalid (.reservedOp (wordOp w)) := by
  unfold decodeWord
  split
  case h_6 => rfl
  all_goals omega

/-- A word that decodes is one of the five families, its operands the word's fields (R77). -/
theorem decodeWord_operation_cases {w : BitVec 52} {i : Instr} (h : decodeWord w = .operation i) :
    i = .reset ∨ i = .rdb (wordAddr w) ∨ i = .wrb (wordAddr w) (wordData w) ∨ (∃ r : Reg, i = r.getOp) ∨
      i = .setvcount (wordData w) := by
  unfold decodeWord at h
  split at h
  case h_1 => cases h; exact .inl rfl
  case h_2 => cases h; exact .inr (.inl rfl)
  case h_3 => cases h; exact .inr (.inr (.inl rfl))
  case h_4 =>
    split at h
    · next r _ => cases h; exact .inr (.inr (.inr (.inl ⟨r, rfl⟩)))
    · cases h
  case h_5 => cases h; exact .inr (.inr (.inr (.inr rfl)))
  case h_6 => cases h

end Sys2Proof

namespace Sys2Proof.Proofs

/-- Settles O44: the rule of each `op` value, with the fields read as quotients of the word. -/
theorem everyTransactionWordDecodes : Obligations.EveryTransactionWordDecodes := by
  intro w
  rw [← wordOp_eq, ← wordAddr_eq, ← wordData_eq]
  exact ⟨decodeWord_reset, decodeWord_rdb, decodeWord_wrb, fun hop _ haddr => decodeWord_getOp hop haddr,
    decodeWord_noSuchRegister, decodeWord_setvcount, decodeWord_reservedOp⟩

end Sys2Proof.Proofs
end

section
/-! The look-up in the 50 `LANE` rows, which inverts the lane addresses of the default table just as the address decoder
does, and the bus cycles decoded by it (spec/30_encoding.md R73, R82; log entry 3). -/

namespace Sys2Proof

/-- A row the look-up finds has the address and is one of the list's. -/
theorem findRow_found {a : Nat} {rows : List LaneRow} {row : LaneRow} (h : findRow a rows = some row) :
    row.addr = a ∧ row ∈ rows := by
  induction rows with
  | nil => cases h
  | cons q qs ih =>
    unfold findRow at h
    split at h
    · next ha =>
      cases h
      exact ⟨ha, List.mem_cons_self⟩
    · obtain ⟨ha, hmem⟩ := ih h
      exact ⟨ha, List.mem_cons_of_mem _ hmem⟩

/-- Each of the 50 rows has the listed address of the lane it names. -/
theorem addr_of_mem_laneRows {row : LaneRow} (h : row ∈ laneRows) : row.addr = laneRowAddr row.reg row.lane := by
  obtain ⟨r, -, hrow⟩ := List.mem_flatMap.1 h
  obtain rfl | rfl := List.mem_pair.1 hrow
  · rfl
  · rfl

/-- The access of a bus cycle as quotients of its value: bit 48 tells a write, bits 47:32 are its value (log entry 3). -/
theorem cycleAccess_eq (w : BitVec 49) :
    cycleAccess w = if w.toNat / 2 ^ 48 = 1 then .write (w.toNat / 2 ^ 32 % 2 ^ 16) else .read := by
  have hlt := w.isLt
  have hbit : w.getLsbD 48 = true ↔ w.toNat / 2 ^ 48 = 1 := by
    rw [BitVec.getLsbD, Nat.testBit_eq_decide_div_mod_eq, decide_eq_true_eq]
    omega
  simp only [cycleAccess, hbit, BitVec.extractLsb_toNat, Nat.shiftRight_eq_div_pow]

/-- A bus cycle at a row's address is that row's access (R82). -/
theorem decodeCycle_of_row {w : BitVec 49} {row : LaneRow} (h : findRow (cycleAddr w) laneRows = some row) :
    decodeCycle w = laneOp row.reg row.lane (cycleAccess w) := by
  simp only [decodeCycle, h]

/-- A bus cycle at any other address is the plain access there (R82). -/
theorem decodeCycle_of_no_row {w : BitVec 49} (h : findRow (cycleAddr w) laneRows = none) :
    decodeCycle w = accessOp (cycleAddr w) (cycleAccess w) := by
  simp only [decodeCycle, h]

end Sys2Proof

namespace Sys2Proof.Machine

/-- The default table meets R15. -/
theorem tableOk_defaultOffsets : tableOk defaultOffsets := by decide

/-- A row is found only at its lane's address under the default table. -/
theorem eq_laneAddr_of_findRow {a : Nat} {row : LaneRow} (h : findRow a laneRows = some row) :
    a = laneAddr defaultOffsets row.reg row.lane := by
  obtain ⟨haddr, hmem⟩ := findRow_found h
  rw [← haddr, addr_of_mem_laneRows hmem, laneRowAddr_eq_laneAddr]

/-- No row is found exactly at the addresses that are no lane's under the default table. -/
theorem findRow_laneRows_eq_none_iff (a : Nat) :
    findRow a laneRows = none ↔ ∀ (r : Reg) (l : Lane), a ≠ laneAddr defaultOffsets r l := by
  cases h : findRow a laneRows with
  | some row => exact iff_of_false nofun fun hall => hall row.reg row.lane (eq_laneAddr_of_findRow h)
  | none =>
    refine iff_of_true rfl fun r l ha => ?_
    rw [ha, ← laneRowAddr_eq_laneAddr, findRow_laneRowAddr] at h
    cases h

end Sys2Proof.Machine

namespace Sys2Proof.Proofs

open Sys2Proof.Machine

/-- Settles O11: a row is found at its lane's address, where the decoder finds the lane, and no row exactly where the
decoder finds no lane. -/
theorem defaultDecodeIsTheLaneTable : Obligations.DefaultDecodeIsTheLaneTable := by
  refine ⟨tableOk_defaultOffsets, rfl, fun a => ?_⟩
  cases h : findRow a laneRows with
  | some row =>
    obtain rfl := eq_laneAddr_of_findRow h
    exact decodeAddr_defaultOffsets_laneAddr row.reg row.lane
  | none => exact tableOk_defaultOffsets.decodeAddr_eq_unmapped_iff.2 ((findRow_laneRows_eq_none_iff a).1 h)

/-- Settles O45: the look-up at the cycle's address finds the row named, or none. -/
theorem everyBusCycleDecodes : Obligations.EveryBusCycleDecodes := by
  intro w
  rw [← cycleAddr_eq, ← cycleAccess_eq]
  constructor
  · intro r l haddr
    refine decodeCycle_of_row (row := ⟨laneRowAddr r l, r, l⟩) ?_
    rw [haddr, ← findRow_laneRowAddr, laneRowAddr_eq_laneAddr, laneAddr]
  · intro hno
    rw [decodeCycle_of_no_row ((findRow_laneRows_eq_none_iff _).2 hno), cycleAccess_eq]
    split
    · rfl
    · rfl

end Sys2Proof.Proofs
end

section
/-! Which operations the decoders give, and that the encoder inverts them (spec/30_encoding.md R77, R82): a kind names one
operation, and the fields of an encoded word are the operands put in. -/

namespace Sys2Proof

open Sys2Proof.Machine Sys2Proof.Laws

/-- The operation of each kind. -/
def OpKind.instr : OpKind → Instr
  | .reset => .reset
  | .rdb a => .rdb a
  | .wrb a v => .wrb a v
  | .setvcount v => .setvcount v
  | .get r => r.getOp
  | .lane r l acc => laneOp r l acc

/-- An operation is the one its kind names: the 79 rows are told apart by kind, register and lane. -/
theorem instr_kind (i : Instr) : i.kind.instr = i := by
  cases i <;> rfl

/-- The operands of a getter fit any widths, since it has none. -/
@[simp] theorem wellFormed_getOp (c : Config) (r : Reg) : r.getOp.wellFormed c = true := by
  rw [Instr.wellFormed, getOp_kind]

/-- A row is well formed when its access is: its address is fixed. -/
@[simp] theorem wellFormed_laneOp (c : Config) (r : Reg) (l : Lane) (acc : BusAccess) :
    (laneOp r l acc).wellFormed c = acc.wellFormed c := by
  rw [Instr.wellFormed, laneOp_kind]

theorem wordAddr_lt (w : BitVec 52) : wordAddr w < 2 ^ 32 := BitVec.isLt _

theorem wordData_lt (w : BitVec 52) : wordData w < 2 ^ 16 := BitVec.isLt _

theorem cycleAddr_lt (w : BitVec 49) : cycleAddr w < 2 ^ 32 := BitVec.isLt _

/-- The value of a cycle's write is its 16-bit field. -/
theorem wellFormed_cycleAccess (w : BitVec 49) : (cycleAccess w).wellFormed defaultConfig = true := by
  unfold cycleAccess
  split
  · exact decide_eq_true (BitVec.isLt _)
  · rfl

/-- A plain access is well formed when its address fits and its value does. -/
theorem wellFormed_accessOp {a : Nat} {acc : BusAccess} (ha : a < 2 ^ 32) (hacc : acc.wellFormed defaultConfig = true) :
    (accessOp a acc).wellFormed defaultConfig = true := by
  cases acc with
  | read => exact decide_eq_true ha
  | write v => exact Bool.and_eq_true_iff.2 ⟨decide_eq_true ha, hacc⟩

/-- A transaction word decodes to an operation whose operands are the word's 32-bit and 16-bit fields (R77). -/
theorem wellFormed_of_decodeWord {w : BitVec 52} {i : Instr} (h : decodeWord w = .operation i) :
    i.wellFormed defaultConfig = true := by
  obtain rfl | rfl | rfl | ⟨r, rfl⟩ | rfl := decodeWord_operation_cases h
  · rfl
  · exact decide_eq_true (wordAddr_lt w)
  · exact Bool.and_eq_true_iff.2 ⟨decide_eq_true (wordAddr_lt w), decide_eq_true (wordData_lt w)⟩
  · exact wellFormed_getOp _ r
  · exact decide_eq_true (wordData_lt w)

/-- A bus cycle decodes to an access of its 32-bit address and 16-bit value (log entry 3). -/
theorem wellFormed_decodeCycle (w : BitVec 49) : (decodeCycle w).wellFormed defaultConfig = true := by
  cases h : findRow (cycleAddr w) laneRows with
  | some row => rw [decodeCycle_of_row h, wellFormed_laneOp, wellFormed_cycleAccess]
  | none => rw [decodeCycle_of_no_row h, wellFormed_accessOp (cycleAddr_lt w) (wellFormed_cycleAccess w)]

theorem decodeWord_opWord_rdb {a : Nat} (ha : a < 2 ^ 32) : decodeWord (opWord 1 a 0) = .operation (.rdb a) := by
  rw [decodeWord_rdb (wordOp_opWord_any (by decide) a 0), wordAddr_opWord (by decide) ha (by decide)]

theorem decodeWord_opWord_wrb {a v : Nat} (ha : a < 2 ^ 32) (hv : v < 2 ^ 16) :
    decodeWord (opWord 2 a v) = .operation (.wrb a v) := by
  rw [decodeWord_wrb (wordOp_opWord_any (by decide) a v), wordAddr_opWord (by decide) ha hv,
    wordData_opWord (by decide) ha hv]

theorem decodeWord_opWord_setvcount {v : Nat} (hv : v < 2 ^ 16) :
    decodeWord (opWord 4 0 v) = .operation (.setvcount v) := by
  rw [decodeWord_setvcount (wordOp_opWord_any (by decide) 0 v), wordData_opWord (by decide) (by decide) hv]

/-- The listed addresses fit the address field of a bus cycle (R73). -/
theorem laneRowAddr_lt (r : Reg) (l : Lane) : laneRowAddr r l < 2 ^ 32 := by
  cases r <;> cases l <;> decide

/-- The address field of an encoded cycle is the address put in. -/
theorem cycleAddr_cycleWord {a : Nat} (ha : a < 2 ^ 32) (acc : BusAccess) : cycleAddr (cycleWord a acc) = a := by
  have hfield : (cycleWord a acc).setWidth 32 = BitVec.ofNat 32 a := by
    cases acc with
    | read => exact BitVec.setWidth_append_eq_right
    | write v => exact BitVec.setWidth_append_eq_right
  rw [cycleAddr_eq, ← BitVec.toNat_setWidth, hfield, BitVec.toNat_ofNat, Nat.mod_eq_of_lt ha]

/-- The access fields of an encoded cycle are the access put in. -/
theorem cycleAccess_cycleWord (a : Nat) {acc : BusAccess} (h : acc.wellFormed defaultConfig = true) :
    cycleAccess (cycleWord a acc) = acc := by
  cases acc with
  | read =>
    have hbit : (cycleWord a .read).getLsbD 48 = false := by simp only [cycleWord, BitVec.getLsbD_append]; rfl
    rw [cycleAccess, hbit]
    rfl
  | write v =>
    have hv : v < 2 ^ 16 := of_decide_eq_true h
    have hbit : (cycleWord a (.write v)).getLsbD 48 = true := by simp only [cycleWord, BitVec.getLsbD_append]; rfl
    have hvalue : (cycleWord a (.write v)).extractLsb 47 32 = BitVec.ofNat 16 v :=
      (BitVec.extractLsb'_append_eq_of_le (Nat.le_refl 32)).trans BitVec.extractLsb'_append_eq_right
    rw [cycleAccess, if_pos hbit, hvalue, BitVec.toNat_ofNat, Nat.mod_eq_of_lt hv]

/-- Decoding the encoded access of a row gives the row back (R82). -/
theorem decodeCycle_cycleWord (r : Reg) (l : Lane) {acc : BusAccess} (h : acc.wellFormed defaultConfig = true) :
    decodeCycle (cycleWord (laneRowAddr r l) acc) = laneOp r l acc := by
  have hrow := findRow_laneRowAddr r l
  rw [← cycleAddr_cycleWord (laneRowAddr_lt r l) acc] at hrow
  rw [decodeCycle_of_row hrow, cycleAccess_cycleWord _ h]

end Sys2Proof

namespace Sys2Proof.Proofs

open Sys2Proof.Machine

/-- Settles O46: the operands are fields of the word presented, and no field is wider than the default widths. -/
theorem decodedOperationsAreWellFormed : Obligations.DecodedOperationsAreWellFormed := by
  intro p i h
  cases p with
  | op w => exact wellFormed_of_decodeWord h
  | cycle w =>
    obtain rfl := WordDecode.operation.inj h
    exact wellFormed_decodeCycle w

/-- Settles O43: by the kind of the operation; the fields the decoder reads are those the encoder wrote. -/
theorem decodeOfEncodeIsTheOperation : Obligations.DecodeOfEncodeIsTheOperation := by
  intro i hwf
  suffices h : (encode i).decode = .operation i.kind.instr by rw [h, instr_kind]
  unfold Instr.wellFormed at hwf
  unfold encode
  cases hk : i.kind with
  | reset => rfl
  | rdb a =>
    rw [hk] at hwf
    exact decodeWord_opWord_rdb (of_decide_eq_true hwf)
  | wrb a v =>
    rw [hk] at hwf
    obtain ⟨ha, hv⟩ := Bool.and_eq_true_iff.1 hwf
    exact decodeWord_opWord_wrb (of_decide_eq_true ha) (of_decide_eq_true hv)
  | setvcount v =>
    rw [hk] at hwf
    exact decodeWord_opWord_setvcount (of_decide_eq_true hwf)
  | get r => exact decodeWord_opWord_getOp r (by decide)
  | lane r l acc =>
    rw [hk] at hwf
    exact congrArg WordDecode.operation (decodeCycle_cycleWord r l hwf)

/-- Settles O47: the eight words are evaluated through the decoders. -/
theorem wordsOfTheEncodingTable : Obligations.WordsOfTheEncodingTable := by
  unfold Obligations.WordsOfTheEncodingTable
  decide

end Sys2Proof.Proofs
end

section
/-! The pseudo-operations as sequences of byte operations (spec/30_encoding.md R80, decision D12; log entry 13). -/

namespace Sys2Proof.Machine

/-- A register's own value masks to the register (R76). -/
theorem maskHalf_toNat (x : Half) : maskHalf x.toNat = x := by
  rw [maskHalf, BitVec.ofNat_toNat, BitVec.setWidth_eq]

/-- A lane's address delivers the lane's byte (R90). -/
theorem busByte_laneAddr {s : State} (ht : tableOk s.cfg.offsets) (r : Reg) (l : Lane) :
    s.busByte (laneAddr s.cfg.offsets r l) = laneOf (s.bank.get r) l := by
  rw [State.busByte, readByte_mapped _ (ht.decodeAddr_laneAddr r l)]

/-- `RDH` assembles the bytes at `a + 1` and `a`, at every address (R80). -/
theorem rdhValue_effects_rdh (s : State) (a : Nat) :
    rdhValue (effects (rdh a) s.cfg s.bank).2 = some (assemble (s.busByte (a + 1)) (s.busByte a)) := rfl

/-- The two halves of a word, the first above the second, are the halves put together (R80). -/
theorem shiftLeft_or_eq_append (h l : Half) : (h.setWidth 32 <<< 16) ||| l.setWidth 32 = h ++ l := by
  rw [← BitVec.setWidth_append_eq_shiftLeft_setWidth_or, BitVec.setWidth_eq]

/-- `RDW` assembles the four bytes from `a + 3` down to `a`, at every address (R80). -/
theorem rdwValue_effects_rdw (s : State) (a : Nat) :
    rdwValue (effects (rdw a) s.cfg s.bank).2 =
      some (s.busByte (a + 3) ++ s.busByte (a + 2) ++ s.busByte (a + 1) ++ s.busByte a) :=
  calc rdwValue (effects (rdw a) s.cfg s.bank).2
    _ = some (((assemble (s.busByte (a + 3)) (s.busByte (a + 2))).setWidth 32 <<< 16) |||
          (assemble (s.busByte (a + 1)) (s.busByte a)).setWidth 32) := rfl
    _ = some ((s.busByte (a + 3) ++ s.busByte (a + 2)) ++ (s.busByte (a + 1) ++ s.busByte a)) := by
      rw [shiftLeft_or_eq_append, assemble_eq_append, assemble_eq_append]
    _ = some (s.busByte (a + 3) ++ s.busByte (a + 2) ++ s.busByte (a + 1) ++ s.busByte a) :=
      congrArg some BitVec.append_assoc'

/-- `WRW` writes the four bytes of its value in address order: each half is cut into its two bytes (R80). -/
theorem wrw_toNat (a : Nat) (x : BitVec 32) :
    wrw a x.toNat = [.wrb a (x.extractLsb' 0 8).toNat, .wrb (a + 1) (x.extractLsb' 8 8).toNat,
      .wrb (a + 2) (x.extractLsb' 16 8).toNat, .wrb (a + 3) (x.extractLsb' 24 8).toNat] := by
  simp only [wrw, wrh, List.cons_append, List.nil_append, Nat.add_assoc, BitVec.extractLsb'_toNat,
    Nat.shiftRight_eq_div_pow, List.cons.injEq, Instr.wrb.injEq, true_and, and_true]
  omega

end Sys2Proof.Machine

namespace Sys2Proof.Proofs

open Sys2Proof.Machine

/-- Settles O41: the two byte writes replace both lanes by the bytes of the value; the two reads deliver both lanes. -/
theorem halfwordPseudoOperations : Obligations.HalfwordPseudoOperations := by
  refine fun s r ht => ⟨fun x => ?_, ?_⟩
  · obtain ⟨t, hrun, hbank⟩ := runOps_wrb_wrb_laneAddr ht r .lo .hi (x.toNat % 2 ^ 8) (x.toNat / 2 ^ 8 % 2 ^ 8)
    rw [setLane_lo_hi, maskByte_mod, maskByte_mod, ← maskHalf_eq_append, maskHalf_toNat] at hbank
    exact ⟨t, hrun, hbank⟩
  · refine ⟨_, _, runOps_eq_effects _ s, rfl, ?_⟩
    have hbyte := busByte_laneAddr ht r
    calc rdhValue (effects (rdh (laneAddr s.cfg.offsets r .lo)) s.cfg s.bank).2
      _ = some (assemble (s.busByte (laneAddr s.cfg.offsets r .hi)) (s.busByte (laneAddr s.cfg.offsets r .lo))) :=
        rdhValue_effects_rdh s _
      _ = some (s.bank.get r) := by rw [hbyte, hbyte, assemble_laneOf]

/-- Settles O42: the reads leave the bank and assemble the four bytes; the writes are those of the value's four bytes. -/
theorem wordPseudoOperations : Obligations.WordPseudoOperations :=
  ⟨fun s a => ⟨_, _, runOps_eq_effects (rdw a) s, rfl, rfl, rdwValue_effects_rdw s a⟩,
    fun s a x => by rw [wrw_toNat]⟩

end Sys2Proof.Proofs
end

section
/-! `VCOUNT` (spec/10_state.md R19): `SETVCOUNT` sets it, and nothing but the listed writers changes it
(spec/42_system_ops.md R131, spec/60_exceptions.md R149). -/

namespace Sys2Proof.Machine

/-- An operation that is no `RESET`, no `SETVCOUNT` and no byte write that decodes to a register leaves the register. -/
theorem effect_get_of_not_writer {i : Instr} {c : Config} {r : Reg} (b : Bank) (hreset : i ≠ .reset)
    (hset : ∀ v, i ≠ .setvcount v)
    (hwrite : ∀ a v l, busAccessOf i = some (a, .write v) → decodeAddr c.offsets a ≠ .mapped r l) :
    (effect i c b).1.get r = b.get r := by
  obtain hi | ⟨v, hi, -⟩ | ⟨a, v, ha, hb⟩ | hb := effect_bank_cases i c b
  · exact absurd hi hreset
  · exact absurd hi (hset v)
  · rw [hb]
    by_contra hchanged
    obtain ⟨l, hl, -⟩ := writeByte_changes hchanged
    exact hwrite a v l ha hl
  · rw [hb]

end Sys2Proof.Machine

namespace Sys2Proof.Proofs

open Sys2Proof.Machine

/-- Settles O31: the effect of `SETVCOUNT`. -/
theorem setVcountStoresSixteenBits : Obligations.SetVcountStoresSixteenBits := fun s v =>
  exec_eq_effect (.setvcount v) s

/-- Settles O37: the closed list of writers, and the idle step. -/
theorem vcountNeverAdvancesByItself : Obligations.VcountNeverAdvancesByItself := by
  constructor
  · intro i s t h hreset hset hwrite
    obtain rfl := eq_effect_of_exec h
    exact effect_get_of_not_writer (r := .vcount) s.bank hreset hset hwrite
  · intro s t hidle h
    rw [step_idle hidle] at h
    cases h
    rfl

end Sys2Proof.Proofs
end
